-- ==== Sys2Proof/Word.lean ====
section
/-! DEFINITION. The word types of RADE and the small operand types its command word selects with. -/

namespace Sys2Proof

/-- A host-visible register value: XLEN bits, unsigned. XLEN is a parameter with default 32 (00_scope R8). -/
abbrev Word (xlen : Nat := 32) := BitVec xlen

/-- One byte of a transaction (20_memory R65). -/
abbrev Byte := BitVec 8

/-- A host register index: "the index is a 5-bit quantity" (20_memory R64). -/
abbrev RegIndex := BitVec 5

/-- The PLLSelector, command field PLL: 0 = A, 1 = B "the second instance" (00_scope R15, 30_encoding R80). -/
inductive PllSel where
  | a
  | b
  deriving DecidableEq, Repr

/-- The three output channels (00_scope R15); the fourth code of the field CH is reserved (30_encoding R80). -/
inductive Channel where
  | ch0
  | ch1
  | ch2
  deriving DecidableEq, Repr

end Sys2Proof
end

