-- ==== Sys2Proof/Syntax.lean ====
section
/-! DEFINITION. RADE's commands (30_encoding R83, spec/opcode_table.json): one constructor per row of the table.
A field a command does not use is no part of the command (30_encoding R81). -/

namespace Sys2Proof

/-- A command as the word in CMDLATCH names it. `ch` is the raw two-bit field CH, whose code 3 is reserved
(30_encoding R80); `WellFormed` rules it out. -/
inductive Instr where
  /-- OP 0x0 (44_control R181) -/
  | nop
  /-- OP 0x1 (40_approx R104) -/
  | approx
  /-- OP 0x2 (41_pllenc R125) -/
  | pllenc (pll : PllSel)
  /-- OP 0x3 (42_msenc R136) -/
  | msenc (pll : PllSel) (ch : BitVec 2) (rdiv : BitVec 3) (drv : BitVec 2)
  /-- OP 0x4 (43_ratio R156) -/
  | ratfp
  /-- OP 0x5 (43_ratio R159) -/
  | ratfd
  /-- OP 0x6 (43_ratio R163) -/
  | setfp (pll : PllSel) (ch : BitVec 2) (rdiv : BitVec 3) (drv : BitVec 2)
  /-- OP 0x7 (43_ratio R165) -/
  | setfd (pll : PllSel) (ch : BitVec 2) (rdiv : BitVec 3) (drv : BitVec 2)
  /-- OP 0x8, reserved (30_encoding R84) -/
  | reserved8
  /-- OP 0x9, reserved (30_encoding R84) -/
  | reserved9
  /-- OP 0xA, reserved (30_encoding R84) -/
  | reservedA
  /-- OP 0xB, reserved (30_encoding R84) -/
  | reservedB
  /-- OP 0xC, reserved (30_encoding R84) -/
  | reservedC
  /-- OP 0xD, reserved (30_encoding R84) -/
  | reservedD
  /-- OP 0xE (44_control R182) -/
  | clrf
  /-- OP 0xF (44_control R183) -/
  | reset
  deriving DecidableEq, Repr

end Sys2Proof
end

