-- ==== Sys2Proof/WellFormed.lean ====
section
/-! DEFINITION. When a command is one the encoding admits. -/

namespace Sys2Proof

/-- The one check on a command's fields: CH = 3 is reserved in MSENC, SETFP and SETFD (30_encoding R84(c)).
PLL, RDIV and DRV admit every value of their widths (30_encoding R80, R85, R86). -/
def Instr.wellFormed : Instr → Bool
  | .nop => true
  | .approx => true
  | .pllenc _ => true
  | .msenc _ ch _ _ => ch != 3
  | .ratfp => true
  | .ratfd => true
  | .setfp _ ch _ _ => ch != 3
  | .setfd _ ch _ _ => ch != 3
  | .reserved8 => true
  | .reserved9 => true
  | .reservedA => true
  | .reservedB => true
  | .reservedC => true
  | .reservedD => true
  | .clrf => true
  | .reset => true

/-- A well-formed command. -/
abbrev Instr.WellFormed (i : Instr) : Prop := i.wellFormed = true

end Sys2Proof
end

