-- ==== Sys2Proof/Decode.lean ====
section
/-! DEFINITION. The command word of format C (30_encoding R80 to R84): the decoder, and after it the encoder. -/

namespace Sys2Proof

/-- Why a word is no command (30_encoding R84): the reserved opcodes are rows of the table and decode. -/
inductive DecodeError where
  /-- R84(b): bits 31:12 are not all 0 in a command other than CLRF, RESET and the reserved opcodes. -/
  | reservedBits
  /-- R84(c): CH = 3 in MSENC, SETFP or SETFD. -/
  | illegalChannel
  deriving DecidableEq, Repr

/-- OP, bits 3:0. -/
def opField (w : BitVec 32) : BitVec 4 := w.extractLsb' 0 4

/-- PLL, bit 4: 0 = A, 1 = B. -/
def pllField (w : BitVec 32) : PllSel := if w.extractLsb' 4 1 = 1 then .b else .a

/-- CH, bits 6:5. -/
def chField (w : BitVec 32) : BitVec 2 := w.extractLsb' 5 2

/-- RDIV, bits 9:7. -/
def rdivField (w : BitVec 32) : BitVec 3 := w.extractLsb' 7 3

/-- DRV, bits 11:10. -/
def drvField (w : BitVec 32) : BitVec 2 := w.extractLsb' 10 2

/-- The reserved bits 31:12. -/
def reservedField (w : BitVec 32) : BitVec 20 := w.extractLsb' 12 20

/-- The opcodes 0x0 to 0x7, whose reserved bits must be 0 (30_encoding R84(b)). -/
def decodeClean (w : BitVec 32) (i : Instr) : Except DecodeError Instr :=
  if reservedField w = 0 then .ok i else .error .reservedBits

/-- The opcodes that use CH, where code 3 is illegal (30_encoding R84(c)). -/
def decodeChannel (w : BitVec 32) (i : Instr) : Except DecodeError Instr :=
  if reservedField w ≠ 0 then .error .reservedBits
  else if chField w = 3 then .error .illegalChannel
  else .ok i

/-- The decoder: OP alone chooses the command (30_encoding R83); the fields it uses are read, the others are
ignored (R81). -/
def decode (w : BitVec 32) : Except DecodeError Instr :=
  match (opField w).toNat with
  | 0 => decodeClean w .nop
  | 1 => decodeClean w .approx
  | 2 => decodeClean w (.pllenc (pllField w))
  | 3 => decodeChannel w (.msenc (pllField w) (chField w) (rdivField w) (drvField w))
  | 4 => decodeClean w .ratfp
  | 5 => decodeClean w .ratfd
  | 6 => decodeChannel w (.setfp (pllField w) (chField w) (rdivField w) (drvField w))
  | 7 => decodeChannel w (.setfd (pllField w) (chField w) (rdivField w) (drvField w))
  | 8 => .ok .reserved8
  | 9 => .ok .reserved9
  | 10 => .ok .reservedA
  | 11 => .ok .reservedB
  | 12 => .ok .reservedC
  | 13 => .ok .reservedD
  | 14 => .ok .clrf
  | _ => .ok .reset

/-- The bit of the field PLL. -/
def PllSel.bit : PllSel → BitVec 1
  | .a => 0
  | .b => 1

/-- A word of format C with its reserved bits 0 (30_encoding R80). -/
def formatC (op : BitVec 4) (pll : BitVec 1) (ch : BitVec 2) (rdiv : BitVec 3) (drv : BitVec 2) : BitVec 32 :=
  (0 : BitVec 20) ++ drv ++ rdiv ++ ch ++ pll ++ op

/-- The encoder: an unused field is 0 (30_encoding R87). -/
def encode : Instr → BitVec 32
  | .nop => formatC 0x0 0 0 0 0
  | .approx => formatC 0x1 0 0 0 0
  | .pllenc pll => formatC 0x2 pll.bit 0 0 0
  | .msenc pll ch rdiv drv => formatC 0x3 pll.bit ch rdiv drv
  | .ratfp => formatC 0x4 0 0 0 0
  | .ratfd => formatC 0x5 0 0 0 0
  | .setfp pll ch rdiv drv => formatC 0x6 pll.bit ch rdiv drv
  | .setfd pll ch rdiv drv => formatC 0x7 pll.bit ch rdiv drv
  | .reserved8 => formatC 0x8 0 0 0 0
  | .reserved9 => formatC 0x9 0 0 0 0
  | .reservedA => formatC 0xA 0 0 0 0
  | .reservedB => formatC 0xB 0 0 0 0
  | .reservedC => formatC 0xC 0 0 0 0
  | .reservedD => formatC 0xD 0 0 0 0
  | .clrf => formatC 0xE 0 0 0 0
  | .reset => formatC 0xF 0 0 0 0

/-- The bits of a word a command's decoding looks at (30_encoding R81, R84): OP, the fields it uses, and the
reserved bits where they must be 0. These are the masks of spec/opcode_table.json with the used fields added. -/
def usedMask : Instr → BitVec 32
  | .nop => 0xFFFFF00F
  | .approx => 0xFFFFF00F
  | .pllenc _ => 0xFFFFF01F
  | .msenc _ _ _ _ => 0xFFFFFFFF
  | .ratfp => 0xFFFFF00F
  | .ratfd => 0xFFFFF00F
  | .setfp _ _ _ _ => 0xFFFFFFFF
  | .setfd _ _ _ _ => 0xFFFFFFFF
  | .reserved8 => 0x0000000F
  | .reserved9 => 0x0000000F
  | .reservedA => 0x0000000F
  | .reservedB => 0x0000000F
  | .reservedC => 0x0000000F
  | .reservedD => 0x0000000F
  | .clrf => 0x0000000F
  | .reset => 0x0000000F

/-- The host's question: what the decoder reads from a word of which the table numbers nbits bits; every bit above
them is 0. -/
def decodeTableWord (nbits w : Nat) : Option Instr :=
  match decode (BitVec.ofNat 32 (w % 2 ^ nbits)) with
  | .ok i => some i
  | .error _ => none

end Sys2Proof
end

