-- ==== Sys2Proof/Config.lean ====
section
/-! DEFINITION. What an implementation of RADE fixes (00_scope R7, R9), and the one free value of the spec
(20_memory R63). -/

namespace Sys2Proof

/-- The largest value of a general register, 2^XLEN - 1 (00_scope R13). -/
abbrev Config.maxWord (xlen : Nat) : Nat := 2 ^ xlen - 1

/-- BOUND20 = 2^20 - 1, "the bound used throughout" (00_scope R7); MAXDEN's reset value (10_state R36). -/
abbrev Config.bound20 : Nat := 1048575

/-- The fractional scaling constant 128 (00_scope R7). -/
abbrev Config.fracScale : Nat := 128

/-- The offset 512 of P1 (00_scope R7). -/
abbrev Config.p1Offset : Nat := 512

/-- FREE VALUE (log 5). What the n-th unspecified host read returns (20_memory R63: "any value, possibly different
at each read"). It has no body: nothing can be proved of its values. -/
opaque Config.freeRead (xlen : Nat) : Nat → Word xlen

/-- The chip-constant parameters of 00_scope R9, one field each. A state carries them as plain data, no step changes
them, and so a statement about every state holds for every value of them (log 2). -/
structure ChipParams where
  /-- `PLL_BASE[A]` -/
  pllBaseA : Byte
  /-- `PLL_BASE[B]` -/
  pllBaseB : Byte
  /-- `MS_BASE[0]` -/
  msBase0 : Byte
  /-- `MS_BASE[1]` -/
  msBase1 : Byte
  /-- `MS_BASE[2]` -/
  msBase2 : Byte
  /-- `CLK_CTRL[0]` -/
  clkCtrl0 : Byte
  /-- `CLK_CTRL[1]` -/
  clkCtrl1 : Byte
  /-- `CLK_CTRL[2]` -/
  clkCtrl2 : Byte
  /-- `DIVBY4_MASK`, ORed into payload byte 2 when `div == 4` -/
  divBy4Mask : Byte
  /-- `RDIV_SHIFT`, bit position of the prescaler code in payload byte 2 -/
  rdivShift : Nat
  /-- `CC_INPUT_MS`, clock-control mask "input = multisynth" -/
  ccInputMs : Byte
  /-- `CC_PLLB`, clock-control mask "PLL source is the second instance" -/
  ccPllB : Byte
  /-- `CC_INT`, clock-control mask "integer mode" -/
  ccInt : Byte
  /-- `DRV` placement: the lowest bit of the drive-strength code in the clock-control byte -/
  drvShift : Nat
  deriving DecidableEq, Repr

/-- PRESUMED (log 2): the defaults of 00_scope R9, each "from general knowledge, not in source". -/
def ChipParams.default : ChipParams where
  pllBaseA := 26
  pllBaseB := 34
  msBase0 := 42
  msBase1 := 50
  msBase2 := 58
  clkCtrl0 := 16
  clkCtrl1 := 17
  clkCtrl2 := 18
  divBy4Mask := 0x0C
  rdivShift := 4
  ccInputMs := 0x0C
  ccPllB := 0x20
  ccInt := 0x40
  drvShift := 0

end Sys2Proof
end

