-- ==== Sys2Proof/Machine/State.lean ====
section
/-! DEFINITION. The state of RADE and of what stands beside it, the fault causes, and the state after reset. -/

namespace Sys2Proof.Machine

/-- The sequencing state (10_state R23); STATUS.BUSY is `phase = run`. -/
inductive Phase where
  | idle
  | run
  deriving DecidableEq, Repr

/-- The general registers by name (10_state R20). -/
inductive GReg where
  | num
  | den
  | maxden
  | mult
  | div
  | freq
  | ref
  | hmul
  deriving DecidableEq, Repr

/-- RADE's fault causes (60_exceptions R222). A fault is a record in STATUS, after which the machine goes on
(R221). -/
inductive Cause where
  /-- 1: illegal command word (R223) -/
  | illcmd
  /-- 2: APPROX with DEN = 0 (R224) -/
  | zeroden
  /-- 3: the approximation stage with MAXDEN = 0 (R225) -/
  | zeromax
  /-- 4: a division whose divisor is 0 (R227) -/
  | divzero
  /-- 5: a quotient that does not fit a general register (R226) -/
  | overflow
  deriving DecidableEq, Repr

/-- The five result flags of STATUS (10_state R28). -/
structure ResultFlags where
  apx : Bool
  inx : Bool
  intm : Bool
  div4 : Bool
  trunc : Bool
  deriving DecidableEq, Repr

/-- What can happen next, one step each: the host's accesses (20_memory R61, R62), an assertion of the reset input
(70_reset R245), or the engine's turn (log 3). -/
inductive Event (xlen : Nat := 32) where
  /-- HostRead(i) -/
  | hostRead (i : RegIndex)
  /-- HostWrite(i, v) -/
  | hostWrite (i : RegIndex) (v : Word xlen)
  /-- the reset input is asserted -/
  | resetInput
  /-- RADE's engine moves: it completes the command it runs, or waits -/
  | engine
  deriving DecidableEq, Repr

/-- One write transaction, first byte the target register address (20_memory R65). -/
abbrev Transaction := List Byte

/-- The state: RADE's registers (10_state R20 to R36), then what stands beside RADE. XLEN is its parameter, 32 where
none is given (00_scope R8): `State` is `State 32`, and `State 64` is the same machine with 64-bit registers (log 1). -/
structure State (xlen : Nat := 32) where
  /-- NUM, index 0 (10_state R20) -/
  num : Word xlen
  /-- DEN, index 1 -/
  den : Word xlen
  /-- MAXDEN, index 2 -/
  maxden : Word xlen
  /-- MULT, index 3 -/
  mult : Word xlen
  /-- DIV, index 4 -/
  div : Word xlen
  /-- FREQ, index 5 -/
  freq : Word xlen
  /-- REF, index 6 -/
  ref : Word xlen
  /-- HMUL, index 7 -/
  hmul : Word xlen
  /-- the sequencing state (10_state R23) -/
  phase : Phase
  /-- CMDLATCH: the command word being executed while phase = RUN (10_state R23, log 8) -/
  cmdLatch : BitVec 32
  /-- STATUS.DONE (10_state R26) -/
  done : Bool
  /-- STATUS.FAULT (10_state R26) -/
  fault : Bool
  /-- STATUS.CAUSE (10_state R26) -/
  cause : BitVec 4
  /-- the result flags of STATUS (10_state R28) -/
  flags : ResultFlags
  /-- PP1, index 10 (10_state R29) -/
  pp1 : BitVec 18
  /-- PP2, index 11 -/
  pp2 : BitVec 20
  /-- PP3, index 12 -/
  pp3 : BitVec 20
  /-- MP1, index 13 -/
  mp1 : BitVec 18
  /-- MP2, index 14 -/
  mp2 : BitVec 20
  /-- MP3, index 15 -/
  mp3 : BitVec 20
  /-- PLLTX[0..8], read at indices 16 to 18 (10_state R31, R32) -/
  pllTx : Vector Byte 9
  /-- MSTX[0..8], read at indices 19 to 21 -/
  msTx : Vector Byte 9
  /-- CCTX[0..1], read at index 22 -/
  ccTx : Vector Byte 2
  /-- Configuration: the chip constants (00_scope R9, log 2); no step changes it. -/
  chip : ChipParams
  /-- The TX event stream, oldest first (20_memory R66): RADE never reads it (10_state R34, log 6). -/
  txStream : List Transaction
  /-- The model's own record of what each HostRead returned, oldest first (20_memory R61, log 6). -/
  reads : List (RegIndex × Word xlen)
  /-- The model's own count of unspecified reads, the argument of the free value (20_memory R63, log 5). -/
  draws : Nat
  /-- The model's own schedule: what happens next, first event first (log 3); when it is empty the engine
  moves (log 4). -/
  events : List (Event xlen)
  deriving DecidableEq, Repr

/-- Why the machine would stop. The spec names nothing that stops RADE: its faults are records in STATUS
(60_exceptions R221) and every access of the host has a meaning (20_memory R61, R62). So there is no constructor,
which is safe: no behaviour is cut off (log 14). -/
inductive Fault where
  deriving DecidableEq, Repr

/-- Why an instruction has no meaning here. -/
inductive Refusal where
  /-- Raised by an arm of exec that has no meaning yet, under its mnemonic. Safe: the run stops. No arm raises it
  any more. -/
  | notModelled (mnemonic : String)
  deriving DecidableEq, Repr

/-- The state after reset (10_state R36) at any XLEN, with the default chip constants (log 2), an empty TX stream and
nothing scheduled. -/
def State.initial {xlen : Nat} : State xlen where
  num := 0
  den := 0
  maxden := 1048575
  mult := 0
  div := 0
  freq := 0
  ref := 0
  hmul := 0
  phase := .idle
  cmdLatch := 0
  done := false
  fault := false
  cause := 0
  flags := ⟨false, false, false, false, false⟩
  pp1 := 0
  pp2 := 0
  pp3 := 0
  mp1 := 0
  mp2 := 0
  mp3 := 0
  pllTx := #v[0, 0, 0, 0, 0, 0, 0, 0, 0]
  msTx := #v[0, 0, 0, 0, 0, 0, 0, 0, 0]
  ccTx := #v[0, 0]
  chip := ChipParams.default
  txStream := []
  reads := []
  draws := 0
  events := []

/-- The state after reset at the default XLEN. -/
def State.reset : State := State.initial

end Sys2Proof.Machine
end

