-- ==== Sys2Proof/Machine/Arith.lean ====
section
/-! DEFINITION. RADE's pure functions: approx (40_approx R101), fields, reduce and payload (41_pllenc R121, R123,
R124), and the ratio construction under an approximation stage (43_ratio R156, R157, R159). Arithmetic is exact over
the naturals and integers (00_scope R10); `/` is the floor division of 00_scope R12. -/

namespace Sys2Proof.Machine

/-- The convergent state of the approximation loop (10_state R33). -/
structure ConvState where
  p0 : Nat
  q0 : Nat
  p1 : Nat
  q1 : Nat
  n : Nat
  d : Nat
  deriving DecidableEq, Repr

/-- What `approx` returns: the pair, and the flags apx and inx (40_approx R101). -/
structure ApproxResult where
  num : Nat
  den : Nat
  apx : Bool
  inx : Bool
  deriving DecidableEq, Repr

/-- The loop's start: (p0, q0) = (0, 1), (p1, q1) = (1, 0) (40_approx R103). -/
def convStart (n0 d0 : Nat) : ConvState := ⟨0, 1, 1, 0, n0, d0⟩

/-- The partial quotient a = n div d of a loop iteration (40_approx R103). -/
def ConvState.quot (c : ConvState) : Nat := c.n / c.d

/-- p2 = p0 + a*p1 (40_approx R103). -/
def ConvState.p2 (c : ConvState) : Nat := c.p0 + c.quot * c.p1

/-- q2 = q0 + a*q1 (40_approx R103). -/
def ConvState.q2 (c : ConvState) : Nat := c.q0 + c.quot * c.q1

/-- The advance of an iteration whose q2 is within the bound (40_approx R103). -/
def ConvState.advance (c : ConvState) : ConvState := ⟨c.p1, c.q1, c.p2, c.q2, c.d, c.n - c.quot * c.d⟩

/-- The loop of 40_approx R101, at most `fuel` iterations of it: d falls at each advance, so a fuel above d is never
used up (log 10). Both exits return the current (p1, q1). -/
def approxLoop (m : Nat) : Nat → ConvState → ApproxResult
  | 0, c => ⟨c.p1, c.q1, true, false⟩
  | fuel + 1, c =>
    if c.d = 0 then ⟨c.p1, c.q1, true, false⟩
    else if c.q2 > m then ⟨c.p1, c.q1, true, true⟩
    else approxLoop m fuel c.advance

/-- approx(n0, d0, m), its tests in the order of 40_approx R101. -/
def approx (n0 d0 m : Nat) : Except Cause ApproxResult :=
  if d0 = 0 then .error .zeroden
  else if d0 ≤ m then .ok ⟨n0, d0, false, false⟩
  else if m = 0 then .error .zeromax
  else .ok (approxLoop m (d0 + 1) (convStart n0 d0))

/-- P1, P2, P3 before reduction, as integers (41_pllenc R121). -/
structure RawFields where
  p1 : Int
  p2 : Int
  p3 : Int
  deriving DecidableEq, Repr

/-- P1, P2, P3 in their widths, and whether anything was lost (41_pllenc R123). -/
structure Fields where
  p1 : BitVec 18
  p2 : BitVec 20
  p3 : BitVec 20
  trunc : Bool
  deriving DecidableEq, Repr

/-- fields(ip, num, den) (41_pllenc R121): integer mode on num = 0, where den is not read; else fractional mode. -/
def fields (ip num den : Nat) : Except Cause RawFields :=
  if num = 0 then .ok ⟨(Config.fracScale * ip : Int) - Config.p1Offset, 0, 1⟩
  else if den = 0 then .error .divzero
  else
    let f := (Config.fracScale * num) / den
    .ok ⟨(Config.fracScale * ip + f : Int) - Config.p1Offset, (Config.fracScale * num : Int) - den * f, den⟩

/-- Whether a value fits an unsigned field of `width` bits. -/
def fitsField (width : Nat) (v : Int) : Bool := decide (0 ≤ v ∧ v < 2 ^ width)

/-- reduce (41_pllenc R123): modulo 2^18, 2^20, 2^20 with a non-negative result. -/
def reduce (r : RawFields) : Fields :=
  ⟨BitVec.ofInt 18 r.p1, BitVec.ofInt 20 r.p2, BitVec.ofInt 20 r.p3,
    !(fitsField 18 r.p1 && fitsField 20 r.p2 && fitsField 20 r.p3)⟩

/-- payload (41_pllenc R124): the eight data bytes, `or2` ORed into byte 2. -/
def payload (p1 : BitVec 18) (p2 p3 : BitVec 20) (or2 : Byte) : Vector Byte 8 :=
  #v[p3.extractLsb' 8 8,
     p3.extractLsb' 0 8,
     (p1.extractLsb' 16 2).setWidth 8 ||| or2,
     p1.extractLsb' 8 8,
     p1.extractLsb' 0 8,
     p3.extractLsb' 16 4 ++ p2.extractLsb' 16 4,
     p2.extractLsb' 8 8,
     p2.extractLsb' 0 8]

/-- A divider transaction: [base] ++ payload, nine bytes (10_state R31). -/
def dividerTx (base : Byte) (b : Vector Byte 8) : Vector Byte 9 :=
  #v[base, b[0], b[1], b[2], b[3], b[4], b[5], b[6], b[7]]

/-- What a ratio command computes: the quotient for DIV or MULT, and the approximated fraction. -/
structure Ratio where
  quot : Nat
  frac : ApproxResult
  deriving DecidableEq, Repr

/-- The ratio construction t/den with its approximation stage (43_ratio R156, R159 up to and including the OVERFLOW
test, R157): the tests in the order DIVZERO, ZEROMAX, OVERFLOW; the quotient must fit XLEN bits (60_exceptions R226). -/
def ratioStage (xlen t den m : Nat) : Except Cause Ratio :=
  if den = 0 then .error .divzero
  else
    match approx (t - den * (t / den)) den m with
    | .error c => .error c
    | .ok r => if t / den > Config.maxWord xlen then .error .overflow else .ok ⟨t / den, r⟩

end Sys2Proof.Machine
end

