-- ==== Sys2Proof/Machine/Operands.lean ====
section
/-! DEFINITION. The operand forms: general registers by name and by host index (10_state R20, R35), and what the
command fields PLL, CH, RDIV and DRV select (30_encoding R80, 00_scope R9). -/

namespace Sys2Proof.Machine

variable {xlen : Nat}

/-- G[NAME], read (00_scope R13). -/
def State.getG (s : State xlen) : GReg → Word xlen
  | .num => s.num
  | .den => s.den
  | .maxden => s.maxden
  | .mult => s.mult
  | .div => s.div
  | .freq => s.freq
  | .ref => s.ref
  | .hmul => s.hmul

/-- G[NAME] <- v (00_scope R13). -/
def State.setG (s : State xlen) (r : GReg) (v : Word xlen) : State xlen :=
  match r with
  | .num => { s with num := v }
  | .den => { s with den := v }
  | .maxden => { s with maxden := v }
  | .mult => { s with mult := v }
  | .div => { s with div := v }
  | .freq => { s with freq := v }
  | .ref => { s with ref := v }
  | .hmul => { s with hmul := v }

/-- The general register at a host index, for indices 0 to 7 (10_state R20). -/
def gregAt (i : RegIndex) : Option GReg :=
  match i.toNat with
  | 0 => some .num
  | 1 => some .den
  | 2 => some .maxden
  | 3 => some .mult
  | 4 => some .div
  | 5 => some .freq
  | 6 => some .ref
  | 7 => some .hmul
  | _ => none

/-- The channel a CH code names; code 3 is reserved (30_encoding R80, R84(c)). -/
def channelOf (ch : BitVec 2) : Option Channel :=
  match ch.toNat with
  | 0 => some .ch0
  | 1 => some .ch1
  | 2 => some .ch2
  | _ => none

/-- PLL_BASE[PLL] (41_pllenc R125). -/
def pllBase (chip : ChipParams) : PllSel → Byte
  | .a => chip.pllBaseA
  | .b => chip.pllBaseB

/-- MS_BASE[CH] (42_msenc R141). -/
def msBase (chip : ChipParams) : Channel → Byte
  | .ch0 => chip.msBase0
  | .ch1 => chip.msBase1
  | .ch2 => chip.msBase2

/-- CLK_CTRL[CH] (42_msenc R142). -/
def clkCtrl (chip : ChipParams) : Channel → Byte
  | .ch0 => chip.clkCtrl0
  | .ch1 => chip.clkCtrl1
  | .ch2 => chip.clkCtrl2

/-- The value ORed into byte 2 of an output-divider payload: (DIVBY4_MASK if div4 else 0) | (RDIV << RDIV_SHIFT)
(42_msenc R140); it is an 8-bit value (41_pllenc R124, log 11). -/
def msOr2 (chip : ChipParams) (div4 : Bool) (rdiv : BitVec 3) : Byte :=
  (if div4 then chip.divBy4Mask else 0) ||| (rdiv.setWidth 8 <<< chip.rdivShift)

/-- The clock-control byte: DRV | CC_INPUT_MS | (CC_PLLB if PLL = 1) | (CC_INT if num = 0) (42_msenc R142). -/
def clockControl (chip : ChipParams) (pll : PllSel) (drv : BitVec 2) (num0 : Bool) : Byte :=
  (drv.setWidth 8 <<< chip.drvShift) ||| chip.ccInputMs ||| (if pll = .b then chip.ccPllB else 0) |||
    (if num0 then chip.ccInt else 0)

/-- A PLL encoding: the reduced fields and the transaction PLLTX (41_pllenc R125). -/
structure PllEncoding where
  fields : Fields
  tx : Vector Byte 9
  deriving DecidableEq, Repr

/-- An output-divider encoding: the reduced fields and the transactions MSTX and CCTX (42_msenc R136). -/
structure MsEncoding where
  fields : Fields
  tx : Vector Byte 9
  cc : Vector Byte 2
  deriving DecidableEq, Repr

/-- The PLL encoder for instance `pll` on integer part `ip` and ratio num/den (41_pllenc R125). -/
def encodePll (chip : ChipParams) (pll : PllSel) (ip num den : Nat) : Except Cause PllEncoding :=
  match fields ip num den with
  | .error c => .error c
  | .ok raw =>
    let f := reduce raw
    .ok ⟨f, dividerTx (pllBase chip pll) (payload f.p1 f.p2 f.p3 0)⟩

/-- The fields of an output divider before reduction: (0, 0, 1) when div = 4, whatever num and den; otherwise
`fields` with div in place of mult (42_msenc R137, R138, R139). -/
def msFields (div num den : Nat) : Except Cause RawFields :=
  if div = 4 then .ok ⟨0, 0, 1⟩ else fields div num den

/-- The output-divider encoder for channel `ch` bound to `pll` on the DividerSpec div, num, den (42_msenc R136). -/
def encodeMs (chip : ChipParams) (pll : PllSel) (ch : Channel) (rdiv : BitVec 3) (drv : BitVec 2)
    (div num den : Nat) : Except Cause MsEncoding :=
  match msFields div num den with
  | .error c => .error c
  | .ok raw =>
    let f := reduce raw
    .ok ⟨f, dividerTx (msBase chip ch) (payload f.p1 f.p2 f.p3 (msOr2 chip (div == 4) rdiv)),
      #v[clkCtrl chip ch, clockControl chip pll drv (num == 0)]⟩

end Sys2Proof.Machine
end

