-- ==== Sys2Proof/Machine/Flags.lean ====
section
/-! DEFINITION. The result flags each command writes (10_state R28), and the STATUS word (10_state R26). -/

namespace Sys2Proof.Machine

variable {xlen : Nat}

/-- All five flags 0 (44_control R182). -/
def ResultFlags.clear : ResultFlags := ⟨false, false, false, false, false⟩

/-- The flags of APPROX, RATFP and RATFD: APX and INX from `approx`, the others 0 (40_approx R104, 43_ratio R156,
R159). -/
def approxFlags (r : ApproxResult) : ResultFlags := ⟨r.apx, r.inx, false, false, false⟩

/-- The flags of PLLENC: INTM = (NUM = 0), TRUNC from `reduce`, the others 0 (41_pllenc R126). -/
def pllencFlags (num : Nat) (f : Fields) : ResultFlags := ⟨false, false, num == 0, false, f.trunc⟩

/-- The flags of MSENC: INTM = (NUM = 0), DIV4 = (DIV = 4), TRUNC from `reduce`, APX = INX = 0 (42_msenc R143). -/
def msencFlags (div num : Nat) (f : Fields) : ResultFlags := ⟨false, false, num == 0, div == 4, f.trunc⟩

/-- The flags of SETFP: APX and INX of the approximation stage, the rest those of the encoder stage
(43_ratio R163). -/
def setfpFlags (r : Ratio) (f : Fields) : ResultFlags :=
  ⟨r.frac.apx, r.frac.inx, r.frac.num == 0, r.quot == 4, f.trunc⟩

/-- The flags of SETFD: APX and INX of the approximation stage, INTM = 1, DIV4 = (DIV = 4), TRUNC of either encoder
stage (43_ratio R165). -/
def setfdFlags (r : Ratio) (div : Nat) (fPll fMs : Fields) : ResultFlags :=
  ⟨r.frac.apx, r.frac.inx, true, div == 4, fPll.trunc || fMs.trunc⟩

/-- STATUS.FAULT as the word shows it: the stored bit, and 0 while BUSY (10_state R26: "at most one of BUSY, DONE, FAULT
is 1 at any time"). The stored bit is still 1 while BUSY only during a CLRF, which clears it at its completion
(44_control R182, log 7). -/
def State.faultShown (s : State xlen) : Bool := decide (s.phase = .idle) && s.fault

/-- STATUS.CAUSE as the word shows it: 0 when the FAULT shown is 0 because RADE is BUSY (10_state R26, log 7). -/
def State.causeShown (s : State xlen) : BitVec 4 := if s.phase = .idle then s.cause else 0

/-- The STATUS word, 32 bits (10_state R26): bits 31:13 and 3 read 0. -/
def State.statusWord (s : State xlen) : BitVec 32 :=
  (0 : BitVec 19) ++ BitVec.ofBool s.flags.trunc ++ BitVec.ofBool s.flags.div4 ++ BitVec.ofBool s.flags.intm ++
    BitVec.ofBool s.flags.inx ++ BitVec.ofBool s.flags.apx ++ s.causeShown ++ (0 : BitVec 1) ++
    BitVec.ofBool s.faultShown ++ BitVec.ofBool s.done ++ BitVec.ofBool (decide (s.phase = .run))

end Sys2Proof.Machine
end

