-- ==== Sys2Proof/Machine/Ops.lean ====
section
/-! DEFINITION. The named operations every command is written with: commits, the completion of a command, TAKING A
FAULT and the return from one, reset, and the fetch of the latched command. -/

namespace Sys2Proof.Machine

variable {xlen : Nat}

/-- The code a cause has in STATUS.CAUSE (60_exceptions R222). -/
def Cause.code : Cause → BitVec 4
  | .illcmd => 1
  | .zeroden => 2
  | .zeromax => 3
  | .divzero => 4
  | .overflow => 5

/-- The fault record (60_exceptions R221): exactly these four writes and nothing else. -/
def State.raise (s : State xlen) (c : Cause) : State xlen :=
  { s with fault := true, cause := c.code, done := false, phase := .idle }

/-- The return from a fault, and CLRF's whole effect at completion (44_control R182): after it STATUS reads 0. -/
def State.clearFault (s : State xlen) : State xlen :=
  { s with fault := false, cause := 0, flags := ResultFlags.clear, done := false, phase := .idle }

/-- A successful completion: STATUS.DONE <- 1, phase <- IDLE (10_state R25(b)). -/
def State.complete (s : State xlen) : State xlen := { s with done := true, phase := .idle }

/-- The completion step of a command whose rule gave `r`: commit, or the fault record (10_state R25(b)). -/
def State.finish (s : State xlen) (r : Except Cause (State xlen)) : Host.Outcome (State xlen) Fault Refusal :=
  match r with
  | .ok t => .next t.complete
  | .error c => .next (s.raise c)

/-- Writes the five result flags (10_state R28). -/
def State.setFlags (s : State xlen) (f : ResultFlags) : State xlen := { s with flags := f }

/-- Emit(t) (20_memory R66). -/
def State.emit (s : State xlen) (t : Transaction) : State xlen := { s with txStream := s.txStream ++ [t] }

/-- RES[PP1], RES[PP2], RES[PP3], RES[PLLTX] (41_pllenc R125). -/
def State.putPll (s : State xlen) (e : PllEncoding) : State xlen :=
  { s with pp1 := e.fields.p1, pp2 := e.fields.p2, pp3 := e.fields.p3, pllTx := e.tx }

/-- RES[MP1], RES[MP2], RES[MP3], RES[MSTX], RES[CCTX] (42_msenc R136). -/
def State.putMs (s : State xlen) (e : MsEncoding) : State xlen :=
  { s with mp1 := e.fields.p1, mp2 := e.fields.p2, mp3 := e.fields.p3, msTx := e.tx, ccTx := e.cc }

/-- G[NUM] and G[DEN] <- an approximated fraction. Both fit XLEN bits in every command (40_approx R107(d),
43_ratio R158(d), R160(a); log 12). -/
def State.putFrac (s : State xlen) (r : ApproxResult) : State xlen :=
  { s with num := BitVec.ofNat xlen r.num, den := BitVec.ofNat xlen r.den }

/-- Reset of RADE (10_state R36, 44_control R183, 70_reset R245): every piece of RADE's state takes its reset value;
what stands beside RADE stays: the chip constants, the emitted transactions ("not recalled"), the host's record and
the schedule (log 6). -/
def State.resetRade (s : State xlen) : State xlen :=
  { (State.initial : State xlen) with
    chip := s.chip
    txStream := s.txStream
    reads := s.reads
    draws := s.draws
    events := s.events }

/-- The command in CMDLATCH, or why it is none (30_encoding R82: decoding happens at completion). -/
def State.latchedCommand (s : State xlen) : Except DecodeError Instr := decode s.cmdLatch

/-- The ILLCMD fault of an illegal command word (30_encoding R84, 60_exceptions R223). -/
def State.illegalCommand (s : State xlen) : Host.Outcome (State xlen) Fault Refusal := s.finish (.error .illcmd)

end Sys2Proof.Machine
end

