-- ==== Sys2Proof/Machine/Approximator.lean ====
section
/-! DEFINITION. The meaning of APPROX (40_approx). -/

namespace Sys2Proof.Machine

variable {xlen : Nat}

/-- APPROX (40_approx R104): NUM, DEN <- approx(NUM, DEN, MAXDEN). -/
def execApprox (s : State xlen) : Host.Outcome (State xlen) Fault Refusal :=
  s.finish <|
    match approx s.num.toNat s.den.toNat s.maxden.toNat with
    | .error c => .error c
    | .ok r => .ok ((s.putFrac r).setFlags (approxFlags r))

end Sys2Proof.Machine
end

