-- ==== Sys2Proof/Machine/Control.lean ====
section
/-! DEFINITION. The meanings of NOP, CLRF, RESET (44_control) and of the reserved opcodes (30_encoding R84). -/

namespace Sys2Proof.Machine

variable {xlen : Nat}

/-- NOP (44_control R181): only DONE; the result flags keep their values. -/
def execNop (s : State xlen) : Host.Outcome (State xlen) Fault Refusal := s.finish (.ok s)

/-- CLRF (44_control R182): the one command whose completion leaves DONE = 0. -/
def execClrf (s : State xlen) : Host.Outcome (State xlen) Fault Refusal := .next s.clearFault

/-- RESET (44_control R183). -/
def execReset (s : State xlen) : Host.Outcome (State xlen) Fault Refusal := .next s.resetRade

/-- Opcode 0x8: ILLCMD whatever the other bits (30_encoding R84(a)). -/
def execReserved8 (s : State xlen) : Host.Outcome (State xlen) Fault Refusal := s.illegalCommand

/-- Opcode 0x9: ILLCMD whatever the other bits (30_encoding R84(a)). -/
def execReserved9 (s : State xlen) : Host.Outcome (State xlen) Fault Refusal := s.illegalCommand

/-- Opcode 0xA: ILLCMD whatever the other bits (30_encoding R84(a)). -/
def execReservedA (s : State xlen) : Host.Outcome (State xlen) Fault Refusal := s.illegalCommand

/-- Opcode 0xB: ILLCMD whatever the other bits (30_encoding R84(a)). -/
def execReservedB (s : State xlen) : Host.Outcome (State xlen) Fault Refusal := s.illegalCommand

/-- Opcode 0xC: ILLCMD whatever the other bits (30_encoding R84(a)). -/
def execReservedC (s : State xlen) : Host.Outcome (State xlen) Fault Refusal := s.illegalCommand

/-- Opcode 0xD: ILLCMD whatever the other bits (30_encoding R84(a)). -/
def execReservedD (s : State xlen) : Host.Outcome (State xlen) Fault Refusal := s.illegalCommand

end Sys2Proof.Machine
end

