-- ==== Sys2Proof/Machine/Encoders.lean ====
section
/-! DEFINITION. The meanings of PLLENC (41_pllenc) and MSENC (42_msenc). -/

namespace Sys2Proof.Machine

variable {xlen : Nat}

/-- PLLENC (41_pllenc R125): encodes MULT, NUM, DEN for PLL instance `pll` and emits one transaction. -/
def execPllenc (pll : PllSel) (s : State xlen) : Host.Outcome (State xlen) Fault Refusal :=
  s.finish <|
    match encodePll s.chip pll s.mult.toNat s.num.toNat s.den.toNat with
    | .error c => .error c
    | .ok e => .ok (((s.putPll e).setFlags (pllencFlags s.num.toNat e.fields)).emit e.tx.toList)

/-- MSENC (42_msenc R136): encodes DIV, NUM, DEN for channel `ch` and emits MSTX, then CCTX. CH = 3 is ILLCMD
(30_encoding R84(c)), before any operand is looked at. -/
def execMsenc (pll : PllSel) (ch : BitVec 2) (rdiv : BitVec 3) (drv : BitVec 2) (s : State xlen) :
    Host.Outcome (State xlen) Fault Refusal :=
  match channelOf ch with
  | none => s.illegalCommand
  | some c =>
    s.finish <|
      match encodeMs s.chip pll c rdiv drv s.div.toNat s.num.toNat s.den.toNat with
      | .error f => .error f
      | .ok e =>
        .ok ((((s.putMs e).setFlags (msencFlags s.div.toNat s.num.toNat e.fields)).emit e.tx.toList).emit e.cc.toList)

end Sys2Proof.Machine
end

