-- ==== Sys2Proof/Machine/Ratios.lean ====
section
/-! DEFINITION. The meanings of RATFP, RATFD, SETFP and SETFD (43_ratio). -/

namespace Sys2Proof.Machine

variable {xlen : Nat}

/-- RATFP's stage (43_ratio R156): REF*HMUL over FREQ, bounded by MAXDEN. -/
def State.fixedPllRatio (s : State xlen) : Except Cause Ratio :=
  ratioStage xlen (s.ref.toNat * s.hmul.toNat) s.freq.toNat s.maxden.toNat

/-- RATFD's stage (43_ratio R159): FREQ*DIV over REF*HMUL, bounded by MAXDEN. -/
def State.fixedDivRatio (s : State xlen) : Except Cause Ratio :=
  ratioStage xlen (s.freq.toNat * s.div.toNat) (s.ref.toNat * s.hmul.toNat) s.maxden.toNat

/-- RATFP (43_ratio R156): writes DIV, NUM, DEN. -/
def execRatfp (s : State xlen) : Host.Outcome (State xlen) Fault Refusal :=
  s.finish <|
    match s.fixedPllRatio with
    | .error c => .error c
    | .ok r => .ok (((s.setG .div (BitVec.ofNat xlen r.quot)).putFrac r.frac).setFlags (approxFlags r.frac))

/-- RATFD (43_ratio R159): writes MULT, NUM, DEN; DIV is read and not written. -/
def execRatfd (s : State xlen) : Host.Outcome (State xlen) Fault Refusal :=
  s.finish <|
    match s.fixedDivRatio with
    | .error c => .error c
    | .ok r => .ok (((s.setG .mult (BitVec.ofNat xlen r.quot)).putFrac r.frac).setFlags (approxFlags r.frac))

/-- SETFP (43_ratio R163, R164): RATFP's stage, then the output-divider encoder on its results, as one command. -/
def execSetfp (pll : PllSel) (ch : BitVec 2) (rdiv : BitVec 3) (drv : BitVec 2) (s : State xlen) :
    Host.Outcome (State xlen) Fault Refusal :=
  match channelOf ch with
  | none => s.illegalCommand
  | some c =>
    s.finish <|
      match s.fixedPllRatio with
      | .error f => .error f
      | .ok r =>
        match encodeMs s.chip pll c rdiv drv r.quot r.frac.num r.frac.den with
        | .error f => .error f
        | .ok e =>
          .ok (((((s.setG .div (BitVec.ofNat xlen r.quot)).putFrac r.frac).putMs e).setFlags
            (setfpFlags r e.fields)).emit e.tx.toList |>.emit e.cc.toList)

/-- SETFD (43_ratio R165, R166): RATFD's stage, the PLL encoder on its results, then the output-divider encoder on
DIV with num = 0 and denom = 1, as one command; emits PLLTX, MSTX, CCTX in this order. -/
def execSetfd (pll : PllSel) (ch : BitVec 2) (rdiv : BitVec 3) (drv : BitVec 2) (s : State xlen) :
    Host.Outcome (State xlen) Fault Refusal :=
  match channelOf ch with
  | none => s.illegalCommand
  | some c =>
    s.finish <|
      match s.fixedDivRatio with
      | .error f => .error f
      | .ok r =>
        match encodePll s.chip pll r.quot r.frac.num r.frac.den with
        | .error f => .error f
        | .ok ep =>
          match encodeMs s.chip pll c rdiv drv s.div.toNat 0 1 with
          | .error f => .error f
          | .ok em =>
            .ok ((((((s.setG .mult (BitVec.ofNat xlen r.quot)).putFrac r.frac).putPll ep).putMs em).setFlags
              (setfdFlags r s.div.toNat ep.fields em.fields)).emit ep.tx.toList |>.emit em.tx.toList
              |>.emit em.cc.toList)

end Sys2Proof.Machine
end

