-- ==== Sys2Proof/Machine/Dispatch.lean ====
section
/-! DEFINITION. exec: the completion step of each command, one arm per constructor of Instr. -/

namespace Sys2Proof.Machine

def exec (i : Instr) (s : State) : Host.Outcome State Fault Refusal :=
  match i with
  | .nop => Sys2Proof.Machine.execNop s
  | .approx => Sys2Proof.Machine.execApprox s
  | .pllenc pll => Sys2Proof.Machine.execPllenc pll s
  | .msenc pll ch rdiv drv => Sys2Proof.Machine.execMsenc pll ch rdiv drv s
  | .ratfp => Sys2Proof.Machine.execRatfp s
  | .ratfd => Sys2Proof.Machine.execRatfd s
  | .setfp pll ch rdiv drv => Sys2Proof.Machine.execSetfp pll ch rdiv drv s
  | .setfd pll ch rdiv drv => Sys2Proof.Machine.execSetfd pll ch rdiv drv s
  | .reserved8 => Sys2Proof.Machine.execReserved8 s
  | .reserved9 => Sys2Proof.Machine.execReserved9 s
  | .reservedA => Sys2Proof.Machine.execReservedA s
  | .reservedB => Sys2Proof.Machine.execReservedB s
  | .reservedC => Sys2Proof.Machine.execReservedC s
  | .reservedD => Sys2Proof.Machine.execReservedD s
  | .clrf => Sys2Proof.Machine.execClrf s
  | .reset => Sys2Proof.Machine.execReset s

end Sys2Proof.Machine
end

