-- ==== Sys2Proof/Machine/HostPort.lean ====
section
/-! DEFINITION. The host's accesses: HostRead and HostWrite over the 32 register indices (20_memory R61 to R64,
10_state R35), the issue of a command (30_encoding R82), and the host-program statements of 30_encoding R87. -/

namespace Sys2Proof.Machine

variable {xlen : Nat}

/-- One word of a TX buffer: byte k at bits 8k+7 : 8k (10_state R32, 20_memory R69). -/
def txWord (b0 b1 b2 b3 : Byte) : BitVec 32 := b3 ++ b2 ++ b1 ++ b0

/-- What each register index holds (10_state R35), zero-extended to XLEN bits (10_state R29): 8 (CMD) and 23 to 31
read 0. At XLEN = 32 every word is as wide as the register (log 1). -/
def State.regWord (s : State xlen) (i : RegIndex) : Word xlen :=
  match i.toNat with
  | 0 => s.num
  | 1 => s.den
  | 2 => s.maxden
  | 3 => s.mult
  | 4 => s.div
  | 5 => s.freq
  | 6 => s.ref
  | 7 => s.hmul
  | 9 => s.statusWord.setWidth xlen
  | 10 => s.pp1.setWidth xlen
  | 11 => s.pp2.setWidth xlen
  | 12 => s.pp3.setWidth xlen
  | 13 => s.mp1.setWidth xlen
  | 14 => s.mp2.setWidth xlen
  | 15 => s.mp3.setWidth xlen
  | 16 => (txWord s.pllTx[0] s.pllTx[1] s.pllTx[2] s.pllTx[3]).setWidth xlen
  | 17 => (txWord s.pllTx[4] s.pllTx[5] s.pllTx[6] s.pllTx[7]).setWidth xlen
  | 18 => (txWord s.pllTx[8] 0 0 0).setWidth xlen
  | 19 => (txWord s.msTx[0] s.msTx[1] s.msTx[2] s.msTx[3]).setWidth xlen
  | 20 => (txWord s.msTx[4] s.msTx[5] s.msTx[6] s.msTx[7]).setWidth xlen
  | 21 => (txWord s.msTx[8] 0 0 0).setWidth xlen
  | 22 => (txWord s.ccTx[0] s.ccTx[1] 0 0).setWidth xlen
  | _ => 0

/-- The indices whose value is unspecified while phase = RUN: 0 to 7 and 10 to 22 (20_memory R63). -/
def workingIndex (i : RegIndex) : Bool := decide (i.toNat ≤ 7 ∨ 10 ≤ i.toNat ∧ i.toNat ≤ 22)

/-- Whether a HostRead(i) is a draw: a working index while phase = RUN (20_memory R63). -/
def State.readIsDraw (s : State xlen) (i : RegIndex) : Bool := decide (s.phase = .run) && workingIndex i

/-- The value HostRead(i) returns (20_memory R61); a draw is the free value (R63, log 5). -/
def State.readValue (s : State xlen) (i : RegIndex) : Word xlen :=
  if s.readIsDraw i then Config.freeRead xlen s.draws else s.regWord i

/-- HostRead(i) (20_memory R61): no effect on RADE; the host's record gains the value, and a draw is counted. -/
def State.hostRead (s : State xlen) (i : RegIndex) : State xlen :=
  { s with
    reads := s.reads ++ [(i, s.readValue i)]
    draws := if s.readIsDraw i then s.draws + 1 else s.draws }

/-- The issue of a command word (10_state R25(a)). -/
def State.issue (s : State xlen) (w : BitVec 32) : State xlen := { s with cmdLatch := w, phase := .run, done := false }

/-- HostWrite(CMD, w), handled by the first matching line of 30_encoding R82. -/
def State.writeCmd (s : State xlen) (w : BitVec 32) : State xlen :=
  if opField w = 0xF then s.resetRade
  else if s.phase = .run then s
  else if s.fault = true ∧ opField w ≠ 0xE then s
  else s.issue w

/-- HostWrite(i, v) (20_memory R62): a general register while IDLE, a command at index 8 (a 32-bit word,
30_encoding R80), otherwise ignored. -/
def State.hostWrite (s : State xlen) (i : RegIndex) (v : Word xlen) : State xlen :=
  if i = 8 then s.writeCmd (v.setWidth 32)
  else
    match gregAt i with
    | some r => if s.phase = .idle then s.setG r v else s
    | none => s

/-- Removes the event that is happening from the schedule. -/
def State.withEvents (s : State xlen) (es : List (Event xlen)) : State xlen := { s with events := es }

/-- The index of a general register (10_state R20). -/
def GReg.index : GReg → RegIndex
  | .num => 0
  | .den => 1
  | .maxden => 2
  | .mult => 3
  | .div => 4
  | .freq => 5
  | .ref => 6
  | .hmul => 7

/-- The statements of a host program (30_encoding R87). -/
inductive HostStmt (xlen : Nat := 32) where
  /-- `WR <reg>, <value>` -/
  | wr (i : RegIndex) (v : Word xlen)
  /-- `RD <reg>` -/
  | rd (i : RegIndex)
  /-- `<MNEMONIC> [pll=] [ch=] [rdiv=] [drv=]` -/
  | command (i : Instr)
  /-- `CMDW <value>` -/
  | cmdw (w : BitVec 32)
  /-- `WAIT`, which reads STATUS `polls` times before RADE completes and once after (log 15) -/
  | wait (polls : Nat)
  deriving DecidableEq, Repr

/-- The events a host statement stands for (30_encoding R87). -/
def HostStmt.events : HostStmt xlen → List (Event xlen)
  | .wr i v => [.hostWrite i v]
  | .rd i => [.hostRead i]
  | .command i => [.hostWrite 8 ((encode i).setWidth xlen)]
  | .cmdw w => [.hostWrite 8 (w.setWidth xlen)]
  | .wait polls => List.replicate polls (.hostRead 9) ++ [.engine, .hostRead 9]

end Sys2Proof.Machine
end

