-- ==== Sys2Proof/Machine/Engine.lean ====
section
/-! DEFINITION. The engine's turn and a step at any XLEN, over what the completion step of a command does (`run`). -/

namespace Sys2Proof.Machine

variable {xlen : Nat}

/-- The engine's turn: while phase = RUN the completion step of the latched command (10_state R25(b)), an illegal word
raising ILLCMD (30_encoding R84); while IDLE it waits for the host (70_reset R246). -/
def engineTurnWith (run : Instr → State xlen → Host.Outcome (State xlen) Fault Refusal) (s : State xlen) :
    Host.Outcome (State xlen) Fault Refusal :=
  match s.phase with
  | .idle => .next s
  | .run =>
    match s.latchedCommand with
    | .ok i => run i s
    | .error _ => s.illegalCommand

/-- One step (20_memory R71: accesses and completions happen one at a time): the next event of the schedule, or the
engine's turn when it is empty. -/
def stepWith (run : Instr → State xlen → Host.Outcome (State xlen) Fault Refusal) (s : State xlen) :
    Host.Outcome (State xlen) Fault Refusal :=
  match s.events with
  | [] => engineTurnWith run s
  | .hostRead i :: es => .next ((s.withEvents es).hostRead i)
  | .hostWrite i v :: es => .next ((s.withEvents es).hostWrite i v)
  | .resetInput :: es => .next (s.withEvents es).resetRade
  | .engine :: es => engineTurnWith run (s.withEvents es)

end Sys2Proof.Machine
end

