-- ==== Sys2Proof/Machine/Step.lean ====
section
/-! DEFINITION. One step at the default XLEN: the next event of the schedule, or the engine's turn. -/

namespace Sys2Proof.Machine

/-- The engine's turn (10_state R25(b)). -/
def engineTurn (s : State) : Host.Outcome State Fault Refusal := engineTurnWith exec s

/-- One step (20_memory R71). -/
def step (s : State) : Host.Outcome State Fault Refusal := stepWith exec s

/-- RADE fetches nothing (10_state R24): a command comes from CMDLATCH. So the word goes where an issue puts it
(10_state R25(a)), and the engine has the next turn (log 13). Bits above nbits are 0. -/
def State.withFetchWord (s : State) (nbits w : Nat) : State :=
  (s.issue (BitVec.ofNat 32 (w % 2 ^ nbits))).withEvents (.engine :: s.events)

end Sys2Proof.Machine
end

