-- ==== Sys2Proof/Safety.lean ====
section
/-! DEFINITION. What a state must keep, and what the host must respect, in the terms the claims use. -/

namespace Sys2Proof.Machine

/-- The invariant of the control state (10_state R25, R26; 30_encoding R82; 60_exceptions R222, R229).
BUSY excludes DONE, FAULT excludes DONE; BUSY and FAULT stand together only while a CLRF runs (log 7); RESET never
sits in the latch; CAUSE is 0 exactly without a fault and never a reserved code. -/
abbrev State.StatusInv {xlen : Nat} (s : State xlen) : Prop :=
  (s.phase = .run → s.done = false) ∧
  (s.fault = true → s.done = false) ∧
  (s.phase = .run → s.fault = true → opField s.cmdLatch = 0xE) ∧
  (s.phase = .run → opField s.cmdLatch ≠ 0xF) ∧
  (s.fault = false → s.cause = 0) ∧
  (s.fault = true → 1 ≤ s.cause.toNat ∧ s.cause.toNat ≤ 5)

/-- The invariant of the result registers (10_state R29, R31): a divider's TX buffer carries the field registers in
the layout of 41_pllenc R124, for MSTX up to the bits ORed into its payload byte 2. -/
abbrev State.BufferInv {xlen : Nat} (s : State xlen) : Prop :=
  s.pllTx = dividerTx s.pllTx[0] (payload s.pp1 s.pp2 s.pp3 0) ∧
  s.msTx = dividerTx s.msTx[0] (payload s.mp1 s.mp2 s.mp3 s.msTx[3])

/-- The host's next access keeps the discipline of 70_reset R249 and R250: while BUSY no register write but RESET, and
no read of a working register. -/
def State.respectsBusy {xlen : Nat} (s : State xlen) : Bool :=
  match s.events with
  | .hostRead i :: _ => !s.readIsDraw i
  | .hostWrite i v :: _ => decide (s.phase = .idle) || (i == 8 && opField (v.setWidth 32) == 0xF)
  | .resetInput :: _ => true
  | .engine :: _ => true
  | [] => true

end Sys2Proof.Machine
end

