-- ==== Sys2Proof/Certificates/Slice0/Obligations.lean ====
section
/-! DEFINITION. What is claimed of the model, from the numbered rules of spec/. -/

open Sys2Proof Sys2Proof.Machine

namespace Sys2Proof.Claims

/-- The fault record of 60_exceptions R221 with cause code k, written out. -/
def raised (s : State) (k : BitVec 4) : State := { s with fault := true, cause := k, done := false, phase := .idle }

/-- The state after a reset of RADE (10_state R36), written out over what stands beside RADE. -/
def resetAround (s : State) : State where
  num := 0
  den := 0
  maxden := 1048575
  mult := 0
  div := 0
  freq := 0
  ref := 0
  hmul := 0
  phase := .idle
  cmdLatch := 0
  done := false
  fault := false
  cause := 0
  flags := ⟨false, false, false, false, false⟩
  pp1 := 0
  pp2 := 0
  pp3 := 0
  mp1 := 0
  mp2 := 0
  mp3 := 0
  pllTx := #v[0, 0, 0, 0, 0, 0, 0, 0, 0]
  msTx := #v[0, 0, 0, 0, 0, 0, 0, 0, 0]
  ccTx := #v[0, 0]
  chip := s.chip
  txStream := s.txStream
  reads := s.reads
  draws := s.draws
  events := s.events

/-- The quotients of the continued-fraction expansion of n/d, at most `fuel` of them (40_approx R100). -/
def quotients : Nat → Nat → Nat → List Nat
  | 0, _, _ => []
  | fuel + 1, n, d => if d = 0 then [] else n / d :: quotients fuel d (n % d)

/-- The value of a finite continued fraction as (numerator, denominator), evaluated from its last quotient. -/
def continuedFraction : List Nat → Nat × Nat
  | [] => (1, 0)
  | a :: l => (a * (continuedFraction l).1 + (continuedFraction l).2, (continuedFraction l).1)

/-- TRUNC of one encoding (41_pllenc R123): a field outside its width. -/
def lost (p1 p2 p3 : Int) : Bool :=
  !decide ((0 ≤ p1 ∧ p1 < 262144) ∧ (0 ≤ p2 ∧ p2 < 1048576) ∧ (0 ≤ p3 ∧ p3 < 1048576))

/-- The fields of P1 to P3 in their widths, from the unreduced integers (41_pllenc R123). -/
def txOf (base : Byte) (p1 p2 p3 : Int) (or2 : Byte) : Vector Byte 9 :=
  dividerTx base (payload (BitVec.ofInt 18 p1) (BitVec.ofInt 20 p2) (BitVec.ofInt 20 p3) or2)

/-- The state a completed MSENC leaves for unreduced fields p1, p2, p3 (42_msenc R136). -/
def msencLeaves (s : State) (pll : PllSel) (c : Channel) (rdiv : BitVec 3) (drv : BitVec 2) (p1 p2 p3 : Int) :
    State :=
  { s with
    mp1 := BitVec.ofInt 18 p1
    mp2 := BitVec.ofInt 20 p2
    mp3 := BitVec.ofInt 20 p3
    msTx := txOf (msBase s.chip c) p1 p2 p3 (msOr2 s.chip (decide (s.div = 4)) rdiv)
    ccTx := #v[clkCtrl s.chip c, clockControl s.chip pll drv (decide (s.num = 0))]
    flags := ⟨false, false, decide (s.num = 0), decide (s.div = 4), lost p1 p2 p3⟩
    txStream := s.txStream ++
      [(txOf (msBase s.chip c) p1 p2 p3 (msOr2 s.chip (decide (s.div = 4)) rdiv)).toList,
       [clkCtrl s.chip c, clockControl s.chip pll drv (decide (s.num = 0))]]
    done := true
    phase := .idle }

/-- The state a completed PLLENC leaves for unreduced fields p1, p2, p3 (41_pllenc R125). -/
def pllencLeaves (s : State) (pll : PllSel) (p1 p2 p3 : Int) : State :=
  { s with
    pp1 := BitVec.ofInt 18 p1
    pp2 := BitVec.ofInt 20 p2
    pp3 := BitVec.ofInt 20 p3
    pllTx := txOf (pllBase s.chip pll) p1 p2 p3 0
    flags := ⟨false, false, decide (s.num = 0), false, lost p1 p2 p3⟩
    txStream := s.txStream ++ [(txOf (pllBase s.chip pll) p1 p2 p3 0).toList]
    done := true
    phase := .idle }

/-- The general registers a command writes (10_state R20's table, RESET by R36). -/
def writesOf : Instr → List GReg
  | .nop => []
  | .approx => [.num, .den]
  | .pllenc _ => []
  | .msenc _ _ _ _ => []
  | .ratfp => [.div, .num, .den]
  | .ratfd => [.mult, .num, .den]
  | .setfp _ _ _ _ => [.div, .num, .den]
  | .setfd _ _ _ _ => [.mult, .num, .den]
  | .reserved8 => []
  | .reserved9 => []
  | .reservedA => []
  | .reservedB => []
  | .reservedC => []
  | .reservedD => []
  | .clrf => []
  | .reset => [.num, .den, .maxden, .mult, .div, .freq, .ref, .hmul]

/-- The general registers a command reads (10_state R20's table). -/
def readsOf : Instr → List GReg
  | .nop => []
  | .approx => [.num, .den, .maxden]
  | .pllenc _ => [.mult, .num, .den]
  | .msenc _ _ _ _ => [.div, .num, .den]
  | .ratfp => [.ref, .hmul, .freq, .maxden]
  | .ratfd => [.freq, .div, .ref, .hmul, .maxden]
  | .setfp _ _ _ _ => [.ref, .hmul, .freq, .maxden]
  | .setfd _ _ _ _ => [.freq, .div, .ref, .hmul, .maxden]
  | .reserved8 => []
  | .reserved9 => []
  | .reservedA => []
  | .reservedB => []
  | .reservedC => []
  | .reservedD => []
  | .clrf => []
  | .reset => []

/-- The commands that write PP1 to PP3 and PLLTX (10_state R29, R31; RESET by R36). -/
def writesPll : Instr → Bool
  | .nop => false
  | .approx => false
  | .pllenc _ => true
  | .msenc _ _ _ _ => false
  | .ratfp => false
  | .ratfd => false
  | .setfp _ _ _ _ => false
  | .setfd _ _ _ _ => true
  | .reserved8 => false
  | .reserved9 => false
  | .reservedA => false
  | .reservedB => false
  | .reservedC => false
  | .reservedD => false
  | .clrf => false
  | .reset => true

/-- The commands that write MP1 to MP3, MSTX and CCTX (10_state R29, R31; RESET by R36). -/
def writesMs : Instr → Bool
  | .nop => false
  | .approx => false
  | .pllenc _ => false
  | .msenc _ _ _ _ => true
  | .ratfp => false
  | .ratfd => false
  | .setfp _ _ _ _ => true
  | .setfd _ _ _ _ => true
  | .reserved8 => false
  | .reserved9 => false
  | .reservedA => false
  | .reservedB => false
  | .reservedC => false
  | .reservedD => false
  | .clrf => false
  | .reset => true

/-- The transactions a completed command has emitted, in order, read off the TX buffers it leaves (20_memory R67). -/
def emissionOf (t : State) : Instr → List Transaction
  | .nop => []
  | .approx => []
  | .pllenc _ => [t.pllTx.toList]
  | .msenc _ _ _ _ => [t.msTx.toList, t.ccTx.toList]
  | .ratfp => []
  | .ratfd => []
  | .setfp _ _ _ _ => [t.msTx.toList, t.ccTx.toList]
  | .setfd _ _ _ _ => [t.pllTx.toList, t.msTx.toList, t.ccTx.toList]
  | .reserved8 => []
  | .reserved9 => []
  | .reservedA => []
  | .reservedB => []
  | .reservedC => []
  | .reservedD => []
  | .clrf => []
  | .reset => []

/-- The cause codes a command word with opcode `op` may raise (60_exceptions R222). -/
def causesOf (op : Nat) : List (BitVec 4) :=
  if op = 0 then [1]
  else if op = 1 then [1, 2, 3]
  else if op = 2 ∨ op = 3 then [1, 4]
  else if 4 ≤ op ∧ op ≤ 7 then [1, 3, 4, 5]
  else if 8 ≤ op ∧ op ≤ 13 then [1]
  else []

/-- The encoding commands (20_memory R75). -/
def isEncoding : Instr → Bool
  | .nop => false
  | .approx => false
  | .pllenc _ => true
  | .msenc _ _ _ _ => true
  | .ratfp => false
  | .ratfd => false
  | .setfp _ _ _ _ => true
  | .setfd _ _ _ _ => true
  | .reserved8 => false
  | .reserved9 => false
  | .reservedA => false
  | .reservedB => false
  | .reservedC => false
  | .reservedD => false
  | .clrf => false
  | .reset => false

/-- At most one of BUSY (bit 0), DONE (bit 1) and FAULT (bit 2) is 1 in a STATUS word, and CAUSE (bits 7:4) is 0 when
FAULT is 0 (10_state R26). -/
def atMostOneShown (w : Nat) : Prop :=
  w % 2 + w / 2 % 2 + w / 4 % 2 ≤ 1 ∧ (w / 4 % 2 = 0 → w / 16 % 16 = 0)

/-- A word that is illegal under 30_encoding R84, in plain arithmetic on the word. -/
def illegalWord (w : Nat) : Prop :=
  (8 ≤ w % 16 ∧ w % 16 ≤ 13) ∨
  (w / 4096 ≠ 0 ∧ w % 16 ≠ 14 ∧ w % 16 ≠ 15) ∨
  ((w % 16 = 3 ∨ w % 16 = 6 ∨ w % 16 = 7) ∧ w / 32 % 4 = 3)

end Sys2Proof.Claims

open Sys2Proof.Claims

/-! Encoding -/

/-- 30_encoding R80, R83: the decoder reads back what the encoder wrote, every field at every value it admits. -/
def Obligations.EncodedCommandDecodesBack : Prop :=
  ∀ i : Instr, i.WellFormed → decode (encode i) = .ok i

/-- 30_encoding R81: the bits of a field a command does not use change nothing, and the fields it uses are those of
its word. -/
def Obligations.UnusedFieldsAreIgnored : Prop :=
  ∀ w w' : BitVec 32, w.toNat % 16 = w'.toNat % 16 → w.toNat / 4096 = w'.toNat / 4096 →
    (w.toNat % 16 ∈ [0, 1, 4, 5, 14, 15] → decode w = decode w') ∧
    (w.toNat % 16 = 2 → w.toNat / 16 % 2 = w'.toNat / 16 % 2 → decode w = decode w') ∧
    (w.toNat / 4096 = 0 → w.toNat % 16 = 2 →
      decode w = .ok (.pllenc (if w.toNat / 16 % 2 = 1 then .b else .a))) ∧
    (w.toNat / 4096 = 0 → w.toNat / 32 % 4 ≠ 3 →
      let pll : PllSel := if w.toNat / 16 % 2 = 1 then .b else .a
      let ch := BitVec.ofNat 2 (w.toNat / 32 % 4)
      let rdiv := BitVec.ofNat 3 (w.toNat / 128 % 8)
      let drv := BitVec.ofNat 2 (w.toNat / 1024 % 4)
      (w.toNat % 16 = 3 → decode w = .ok (.msenc pll ch rdiv drv)) ∧
      (w.toNat % 16 = 6 → decode w = .ok (.setfp pll ch rdiv drv)) ∧
      (w.toNat % 16 = 7 → decode w = .ok (.setfd pll ch rdiv drv)))

/-- 30_encoding R80, R81: a decoded command is well formed, and encoding it gives the word back but for the bits its
decoding does not look at. -/
def Obligations.DecodedCommandEncodesBack : Prop :=
  ∀ (w : BitVec 32) (i : Instr), decode w = .ok i →
    i.WellFormed ∧ encode i &&& usedMask i = w &&& usedMask i ∧ encode i &&& ~~~(usedMask i) = 0

/-- 95_test_vectors 2.7 and 30_encoding R87: command words the spec writes out decode to their statements. -/
def Obligations.WordsOfTheSpecDecode : Prop :=
  decode 0x00000000 = .ok .nop ∧
  decode 0x00000FE0 = .ok .nop ∧
  decode 0x00000001 = .ok .approx ∧
  decode 0x00000012 = .ok (.pllenc .b) ∧
  decode 0x00000C33 = .ok (.msenc .b 1 0 3) ∧
  decode 0x00000743 = .ok (.msenc .a 2 6 1) ∧
  decode 0x00000004 = .ok .ratfp ∧
  decode 0x00000005 = .ok .ratfd ∧
  decode 0x00000306 = .ok (.setfp .a 0 6 0) ∧
  decode 0x00000FD7 = .ok (.setfd .b 2 7 3) ∧
  decode 0xFFFFFFFE = .ok .clrf ∧
  decode 0xABCDEF0F = .ok .reset ∧
  decode 0x80000000 = .error .reservedBits ∧
  decode 0x00000063 = .error .illegalChannel

/-- 30_encoding R84: at completion an illegal word raises ILLCMD whatever the operands; CLRF and RESET are decoded on
OP alone; every other word is a command. The schedule of events is the model's choice (log 3). -/
def Obligations.IllegalWordRaisesIllcmd : Prop :=
  ∀ (s : State) (es : List Event), s.phase = .run → s.events = .engine :: es →
    (illegalWord s.cmdLatch.toNat → step s = .next (raised { s with events := es } 1)) ∧
    (s.cmdLatch.toNat % 16 = 14 → decode s.cmdLatch = .ok .clrf) ∧
    (s.cmdLatch.toNat % 16 = 15 → decode s.cmdLatch = .ok .reset) ∧
    (¬illegalWord s.cmdLatch.toNat → ∃ i, decode s.cmdLatch = .ok i ∧
      i ∉ [.reserved8, .reserved9, .reservedA, .reservedB, .reservedC, .reservedD])

/-! The step and the host port -/

/-- 10_state R25(b): on the engine's turn, asked for or left to it by an empty schedule, the latched command runs. The
schedule, and the engine's turn when it is empty, are the model's choice (log 3, log 4). -/
def Obligations.StepRunsLatchedCommand : Prop :=
  ∀ (s : State) (i : Instr), s.phase = .run → decode s.cmdLatch = .ok i →
    (∀ es, s.events = .engine :: es → step s = exec i { s with events := es }) ∧
    (s.events = [] → step s = exec i s)

/-- 70_reset R246: an idle RADE waits for the host. The schedule, and the engine's turn when it is empty, are the
model's choice (log 3, log 4). -/
def Obligations.IdleEngineWaits : Prop :=
  ∀ s : State, s.phase = .idle →
    (∀ es, s.events = .engine :: es → step s = .next { s with events := es }) ∧ (s.events = [] → step s = .next s)

/-- 30_encoding R82: the issue table. The schedule of events is the model's choice (log 3). -/
def Obligations.CommandIssueTable : Prop :=
  ∀ (s : State) (w : Word) (es : List Event), s.events = .hostWrite 8 w :: es →
    step s = .next
      (if w.toNat % 16 = 15 then resetAround { s with events := es }
       else if s.phase = .run then { s with events := es }
       else if s.fault = true ∧ w.toNat % 16 ≠ 14 then { s with events := es }
       else { s with events := es, cmdLatch := w, phase := .run, done := false })

/-- 20_memory R62: a host write other than to CMD changes the one general register it names, while IDLE, and nothing
otherwise. The schedule of events is the model's choice (log 3). -/
def Obligations.HostWriteChangesOneRegister : Prop :=
  ∀ (s : State) (i : RegIndex) (v : Word) (es : List Event), s.events = .hostWrite i v :: es → i ≠ 8 →
    ∃ t, step s = .next t ∧
      (i.toNat ≤ 7 → s.phase = .idle →
        (∀ r : GReg, t.getG r = if r.index = i then v else s.getG r) ∧
        { t with
          num := s.num, den := s.den, maxden := s.maxden, mult := s.mult
          div := s.div, freq := s.freq, ref := s.ref, hmul := s.hmul } = { s with events := es }) ∧
      (¬(i.toNat ≤ 7 ∧ s.phase = .idle) → t = { s with events := es })

/-- 20_memory R61, R63: a read changes nothing of RADE and returns the register; a working register while BUSY returns
a value nothing is said of. The free value, the record of reads and the schedule are the model's (log 3, log 5, log
6). -/
def Obligations.HostReadReturnsRegister : Prop :=
  ∀ (s : State) (i : RegIndex) (es : List Event), s.events = .hostRead i :: es →
    ∃ (v : Word) (n : Nat), step s = .next { s with events := es, reads := s.reads ++ [(i, v)], draws := n } ∧
      (i = 9 → v = s.statusWord) ∧
      (i = 8 ∨ 23 ≤ i.toNat → v = 0) ∧
      (s.phase = .idle → v = s.regWord i) ∧
      n = if s.phase = .run ∧ (i.toNat ≤ 7 ∨ 10 ≤ i.toNat ∧ i.toNat ≤ 22) then s.draws + 1 else s.draws

/-- 10_state R29, R35: what each register index reads. -/
def Obligations.RegisterIndexMap : Prop :=
  ∀ s : State,
    (∀ r : GReg, s.regWord r.index = s.getG r) ∧
    s.regWord 8 = 0 ∧ s.regWord 9 = s.statusWord ∧
    (s.regWord 10).toNat = s.pp1.toNat ∧ (s.regWord 11).toNat = s.pp2.toNat ∧
    (s.regWord 12).toNat = s.pp3.toNat ∧ (s.regWord 13).toNat = s.mp1.toNat ∧
    (s.regWord 14).toNat = s.mp2.toNat ∧ (s.regWord 15).toNat = s.mp3.toNat ∧
    (∀ i : RegIndex, 23 ≤ i.toNat → s.regWord i = 0)

/-- 10_state R26: the STATUS word, bit by bit; reserved bits read 0. That FAULT and CAUSE read 0 while BUSY is the
model's deduction (log 7). -/
def Obligations.StatusWordLayout : Prop :=
  ∀ s : State, s.statusWord.toNat =
    (if s.phase = .run then 1 else 0) + 2 * s.done.toNat + (if s.phase = .run then 0 else 4 * s.fault.toNat) +
      (if s.phase = .run then 0 else 16 * s.cause.toNat) +
      256 * s.flags.apx.toNat + 512 * s.flags.inx.toNat + 1024 * s.flags.intm.toNat + 2048 * s.flags.div4.toNat +
      4096 * s.flags.trunc.toNat

/-- 10_state R32: byte k of a TX buffer is in bits 8(k mod 4)+7 : 8(k mod 4) of word k div 4; unused bits read 0. -/
def Obligations.TxBufferWordLayout : Prop :=
  ∀ s : State,
    (∀ (k : Nat) (h : k < 9),
      (s.regWord (BitVec.ofNat 5 (16 + k / 4))).toNat / 2 ^ (8 * (k % 4)) % 256 = s.pllTx[k].toNat ∧
      (s.regWord (BitVec.ofNat 5 (19 + k / 4))).toNat / 2 ^ (8 * (k % 4)) % 256 = s.msTx[k].toNat) ∧
    (∀ (k : Nat) (h : k < 2), (s.regWord 22).toNat / 2 ^ (8 * k) % 256 = s.ccTx[k].toNat) ∧
    (s.regWord 18).toNat < 256 ∧ (s.regWord 21).toNat < 256 ∧ (s.regWord 22).toNat < 65536

/-- 70_reset R245: the reset input and the command RESET have the same effect, from every state. What stands beside
RADE stays, by the model's reading (log 6). -/
def Obligations.ResetGivesResetState : Prop :=
  ∀ s : State,
    exec .reset s = .next (resetAround s) ∧
    (∀ es, s.events = .resetInput :: es → step s = .next (resetAround { s with events := es })) ∧
    (∀ (w : Word) (es : List Event), s.events = .hostWrite 8 w :: es → w.toNat % 16 = 15 →
      step s = .next (resetAround { s with events := es }))

/-- 10_state R36: the reset values, MAXDEN's among them, and the STATUS word after reset. The default chip constants
(log 2), the empty stream and the empty schedule (log 3, log 6) are the model's. -/
def Obligations.StateAfterReset : Prop :=
  State.reset = resetAround { State.reset with chip := ChipParams.default, txStream := [], reads := [], events := [] } ∧
  State.reset.statusWord = 0 ∧ State.reset.maxden.toNat = 2 ^ 20 - 1

/-! The pure functions -/

/-- 40_approx R102: a denominator within the bound passes through, not reduced. -/
def Obligations.ApproxPassesThrough : Prop :=
  ∀ n d m : Nat, 0 < d → d ≤ m → approx n d m = .ok ⟨n, d, false, false⟩

/-- 40_approx R105: for every input inside the contract there is a result, and its denominator is positive and within
the bound. -/
def Obligations.ApproxDenominatorWithinBound : Prop :=
  ∀ n d m : Nat, 0 < d → 1 ≤ m →
    ∃ r, approx n d m = .ok r ∧ (m < d → 1 ≤ r.den ∧ r.den ≤ m) ∧ (d ≤ m → r.den = d)

/-- 40_approx R107(a), (b), (c), R110: lowest terms; equal in value when the loop ends on d = 0; different in value when
it ends on the bound; and exact precisely when the reduced denominator is within the bound. -/
def Obligations.ApproxLowestTermsAndValue : Prop :=
  ∀ (n d m : Nat) (r : ApproxResult), m < d → 1 ≤ m → approx n d m = .ok r →
    Nat.Coprime r.num r.den ∧
    (r.inx = false → r.num = n / Nat.gcd n d ∧ r.den = d / Nat.gcd n d) ∧
    (r.inx = true → r.num * d ≠ n * r.den) ∧
    (r.inx = false ↔ d / Nat.gcd n d ≤ m)

/-- 40_approx R107(d): no result exceeds its input, so NUM and DEN always fit their registers. The narrowing it
justifies is log 12. -/
def Obligations.ApproxResultNeverGrows : Prop :=
  ∀ (n d m : Nat) (r : ApproxResult), 1 ≤ m → approx n d m = .ok r → r.num ≤ n ∧ r.den ≤ d

/-- 40_approx R100: the loop returns the last convergent of the continued fraction whose denominator does not exceed
the bound, and INX says whether it was cut off. -/
def Obligations.ApproxIsLastConvergentInBound : Prop :=
  ∀ n d m : Nat, m < d → 1 ≤ m →
    ∃ r k, approx n d m = .ok r ∧ 1 ≤ k ∧ k ≤ (quotients (d + 1) n d).length ∧
      (r.num, r.den) = continuedFraction ((quotients (d + 1) n d).take k) ∧ r.den ≤ m ∧ r.apx = true ∧
      (r.inx = true ↔ k < (quotients (d + 1) n d).length) ∧
      (k < (quotients (d + 1) n d).length →
        m < (continuedFraction ((quotients (d + 1) n d).take (k + 1))).2)

/-- 40_approx R106: numerator 0 gives (0, 1) when the loop runs, and passes through when it does not. -/
def Obligations.ApproxOfZeroNumerator : Prop :=
  ∀ d m : Nat, 0 < d → 1 ≤ m →
    approx 0 d m = if m < d then .ok ⟨0, 1, true, false⟩ else .ok ⟨0, d, false, false⟩

/-- 40_approx R108: with the reset bound 1048575 the loop runs at most 31 iterations. -/
def Obligations.ApproxLoopRunsAtMost31Times : Prop :=
  ∀ n d : Nat, 1048575 < d → approx n d 1048575 = .ok (approxLoop 1048575 31 (convStart n d))

/-- 41_pllenc R121: integer mode whatever den, DIVZERO, and fractional mode; then R122's ranges and the exact identity
of the fields. -/
def Obligations.FieldsSplitTheRatio : Prop :=
  ∀ ip num den : Nat,
    fields ip 0 den = .ok ⟨128 * ip - 512, 0, 1⟩ ∧
    (num ≠ 0 → fields ip num 0 = .error .divzero) ∧
    (num ≠ 0 → den ≠ 0 → ∃ r, fields ip num den = .ok r ∧
      r.p1 = 128 * ip + (128 * num / den : Nat) - 512 ∧ r.p3 = den ∧ 0 ≤ r.p2 ∧ r.p2 < den ∧ r.p2 = ((128 * num % den : Nat) : Int) ∧
      den * (r.p1 + 512) + r.p2 = den * (128 * ip) + 128 * num ∧
      (num < den → 128 * (ip : Int) - 512 ≤ r.p1 ∧ r.p1 ≤ 128 * (ip : Int) - 512 + 127))

/-- 41_pllenc R123: reduction is modulo the field width with a non-negative result, and TRUNC says whether a field lay
outside. -/
def Obligations.ReduceKeepsLowBits : Prop :=
  ∀ r : RawFields,
    ((reduce r).p1.toNat : Int) = r.p1 % 2 ^ 18 ∧
    ((reduce r).p2.toNat : Int) = r.p2 % 2 ^ 20 ∧
    ((reduce r).p3.toNat : Int) = r.p3 % 2 ^ 20 ∧
    ((reduce r).trunc = false ↔
      (0 ≤ r.p1 ∧ r.p1 < 2 ^ 18) ∧ (0 ≤ r.p2 ∧ r.p2 < 2 ^ 20) ∧ (0 ≤ r.p3 ∧ r.p3 < 2 ^ 20))

/-- 41_pllenc R124: the eight payload bytes. -/
def Obligations.PayloadByteLayout : Prop :=
  ∀ (p1 : BitVec 18) (p2 p3 : BitVec 20) (or2 : Byte),
    (payload p1 p2 p3 or2).toList.map BitVec.toNat =
      [p3.toNat / 256 % 256,
       p3.toNat % 256,
       (p1.toNat / 65536) ||| or2.toNat,
       p1.toNat / 256 % 256,
       p1.toNat % 256,
       p3.toNat / 65536 * 16 + p2.toNat / 65536,
       p2.toNat / 256 % 256,
       p2.toNat % 256]

/-- 42_msenc R140, R142: payload byte 2's added bits and the clock-control byte with the default chip constants (the
defaults are the model's configuration, log 2). -/
def Obligations.DefaultOutputDividerBits : Prop :=
  (∀ (div4 : Bool) (rdiv : BitVec 3),
    (msOr2 ChipParams.default div4 rdiv).toNat = 16 * rdiv.toNat + 12 * div4.toNat) ∧
  (∀ (pll : PllSel) (drv : BitVec 2) (num0 : Bool),
    (clockControl ChipParams.default pll drv num0).toNat =
      64 * num0.toNat + (if pll = .b then 32 else 0) + 12 + drv.toNat)

/-! The commands: result, completion and frame in one equation -/

/-- 40_approx R104: APPROX completes whenever DEN and MAXDEN are not 0; NUM, DEN, the flags and DONE are all it
writes, and the results fit. -/
def Obligations.ApproxCommandResult : Prop :=
  ∀ s : State, s.den ≠ 0 → s.maxden ≠ 0 →
    ∃ r, approx s.num.toNat s.den.toNat s.maxden.toNat = .ok r ∧ r.num < 2 ^ 32 ∧ r.den < 2 ^ 32 ∧
      (r.apx = true ↔ s.maxden.toNat < s.den.toNat) ∧
      exec .approx s = .next
        { s with
          num := BitVec.ofNat 32 r.num, den := BitVec.ofNat 32 r.den
          flags := ⟨r.apx, r.inx, false, false, false⟩, done := true, phase := .idle }

/-- 40_approx R109, 60_exceptions R224, R225, R228: APPROX's two faults and their order. -/
def Obligations.ApproxCommandFaults : Prop :=
  ∀ s : State,
    (s.den = 0 → exec .approx s = .next (raised s 2)) ∧
    (s.den ≠ 0 → s.maxden = 0 → exec .approx s = .next (raised s 3))

/-- 41_pllenc R125, R121, R127: PLLENC in integer mode, for every MULT; DEN is not read. -/
def Obligations.PllencIntegerMode : Prop :=
  ∀ (s : State) (pll : PllSel), s.num = 0 →
    exec (.pllenc pll) s = .next (pllencLeaves s pll (128 * s.mult.toNat - 512) 0 1)

/-- 41_pllenc R125, R121, R128: PLLENC in fractional mode. -/
def Obligations.PllencFractionalMode : Prop :=
  ∀ (s : State) (pll : PllSel), s.num ≠ 0 → s.den ≠ 0 →
    exec (.pllenc pll) s = .next (pllencLeaves s pll
      (128 * s.mult.toNat + (128 * s.num.toNat / s.den.toNat : Nat) - 512)
      (128 * s.num.toNat % s.den.toNat : Nat) s.den.toNat)

/-- 42_msenc R136, R137: MSENC with DIV = 4, whatever NUM and DEN. -/
def Obligations.MsencDivideByFour : Prop :=
  ∀ (s : State) (pll : PllSel) (ch : BitVec 2) (rdiv : BitVec 3) (drv : BitVec 2) (c : Channel),
    channelOf ch = some c → s.div = 4 →
    exec (.msenc pll ch rdiv drv) s = .next (msencLeaves s pll c rdiv drv 0 0 1)

/-- 42_msenc R136, R138: MSENC in integer mode. -/
def Obligations.MsencIntegerMode : Prop :=
  ∀ (s : State) (pll : PllSel) (ch : BitVec 2) (rdiv : BitVec 3) (drv : BitVec 2) (c : Channel),
    channelOf ch = some c → s.div ≠ 4 → s.num = 0 →
    exec (.msenc pll ch rdiv drv) s = .next (msencLeaves s pll c rdiv drv (128 * s.div.toNat - 512) 0 1)

/-- 42_msenc R136, R138: MSENC in fractional mode. -/
def Obligations.MsencFractionalMode : Prop :=
  ∀ (s : State) (pll : PllSel) (ch : BitVec 2) (rdiv : BitVec 3) (drv : BitVec 2) (c : Channel),
    channelOf ch = some c → s.div ≠ 4 → s.num ≠ 0 → s.den ≠ 0 →
    exec (.msenc pll ch rdiv drv) s = .next (msencLeaves s pll c rdiv drv
      (128 * s.div.toNat + (128 * s.num.toNat / s.den.toNat : Nat) - 512)
      (128 * s.num.toNat % s.den.toNat : Nat) s.den.toNat)

/-- 60_exceptions R227, R223: the encoders' faults, and that every CH code but 3 names a channel. A term with CH = 3
is ill-formed and no word decodes to it (log 9). -/
def Obligations.EncoderFaults : Prop :=
  ∀ (s : State) (pll : PllSel) (ch : BitVec 2) (rdiv : BitVec 3) (drv : BitVec 2),
    (s.num ≠ 0 → s.den = 0 → exec (.pllenc pll) s = .next (raised s 4)) ∧
    (ch ≠ 3 → s.div ≠ 4 → s.num ≠ 0 → s.den = 0 → exec (.msenc pll ch rdiv drv) s = .next (raised s 4)) ∧
    (exec (.msenc pll 3 rdiv drv) s = .next (raised s 1)) ∧
    (exec (.setfp pll 3 rdiv drv) s = .next (raised s 1)) ∧
    (exec (.setfd pll 3 rdiv drv) s = .next (raised s 1)) ∧
    (ch ≠ 3 ↔ ∃ c, channelOf ch = some c)

/-- 43_ratio R156, R157, R158(d): RATFP completes whenever FREQ and MAXDEN are not 0 and the quotient fits. -/
def Obligations.RatfpCommandResult : Prop :=
  ∀ s : State, s.freq ≠ 0 → s.maxden ≠ 0 → s.ref.toNat * s.hmul.toNat / s.freq.toNat < 2 ^ 32 →
    ∃ r, approx (s.ref.toNat * s.hmul.toNat % s.freq.toNat) s.freq.toNat s.maxden.toNat = .ok r ∧
      r.num < 2 ^ 32 ∧ r.den < 2 ^ 32 ∧
      exec .ratfp s = .next
        { s with
          div := BitVec.ofNat 32 (s.ref.toNat * s.hmul.toNat / s.freq.toNat)
          num := BitVec.ofNat 32 r.num, den := BitVec.ofNat 32 r.den
          flags := ⟨r.apx, r.inx, false, false, false⟩, done := true, phase := .idle }

/-- 43_ratio R159, R157, R160(a): RATFD completes whenever REF, HMUL and MAXDEN are not 0 and the quotient fits. -/
def Obligations.RatfdCommandResult : Prop :=
  ∀ s : State, s.ref ≠ 0 → s.hmul ≠ 0 → s.maxden ≠ 0 →
    s.freq.toNat * s.div.toNat / (s.ref.toNat * s.hmul.toNat) < 2 ^ 32 →
    ∃ r, approx (s.freq.toNat * s.div.toNat % (s.ref.toNat * s.hmul.toNat)) (s.ref.toNat * s.hmul.toNat)
        s.maxden.toNat = .ok r ∧
      r.num < 2 ^ 32 ∧ r.den < 2 ^ 32 ∧
      exec .ratfd s = .next
        { s with
          mult := BitVec.ofNat 32 (s.freq.toNat * s.div.toNat / (s.ref.toNat * s.hmul.toNat))
          num := BitVec.ofNat 32 r.num, den := BitVec.ofNat 32 r.den
          flags := ⟨r.apx, r.inx, false, false, false⟩, done := true, phase := .idle }

/-- 43_ratio R156, R159, R163, R165, 60_exceptions R228: the ratio commands' faults, in their order. -/
def Obligations.RatioCommandFaults : Prop :=
  ∀ (s : State) (pll : PllSel) (ch : BitVec 2) (rdiv : BitVec 3) (drv : BitVec 2), ch ≠ 3 →
    (∀ k : BitVec 4,
      (k = 4 ∧ s.freq = 0) ∨
      (k = 3 ∧ s.freq ≠ 0 ∧ s.maxden = 0) ∨
      (k = 5 ∧ s.freq ≠ 0 ∧ s.maxden ≠ 0 ∧ 2 ^ 32 ≤ s.ref.toNat * s.hmul.toNat / s.freq.toNat) →
      exec .ratfp s = .next (raised s k) ∧ exec (.setfp pll ch rdiv drv) s = .next (raised s k)) ∧
    (∀ k : BitVec 4,
      (k = 4 ∧ (s.ref = 0 ∨ s.hmul = 0)) ∨
      (k = 3 ∧ s.ref ≠ 0 ∧ s.hmul ≠ 0 ∧ s.maxden = 0) ∨
      (k = 5 ∧ s.ref ≠ 0 ∧ s.hmul ≠ 0 ∧ s.maxden ≠ 0 ∧
        2 ^ 32 ≤ s.freq.toNat * s.div.toNat / (s.ref.toNat * s.hmul.toNat)) →
      exec .ratfd s = .next (raised s k) ∧ exec (.setfd pll ch rdiv drv) s = .next (raised s k))

/-- 43_ratio R163, R164, R167: SETFP completes where RATFP does, and leaves what RATFP and then MSENC leave but for
APX and INX, which stay those of the approximation stage. -/
def Obligations.SetfpEqualsRatfpThenMsenc : Prop :=
  ∀ (s : State) (pll : PllSel) (ch : BitVec 2) (rdiv : BitVec 3) (drv : BitVec 2), ch ≠ 3 →
    s.freq ≠ 0 → s.maxden ≠ 0 → s.ref.toNat * s.hmul.toNat / s.freq.toNat < 2 ^ 32 →
    ∃ t₁ t₂, exec .ratfp s = .next t₁ ∧ exec (.msenc pll ch rdiv drv) t₁ = .next t₂ ∧
      t₁.done = true ∧ t₂.done = true ∧
      exec (.setfp pll ch rdiv drv) s = .next
        { t₂ with flags := { t₂.flags with apx := t₁.flags.apx, inx := t₁.flags.inx } }

/-- 43_ratio R165, R166, R167: SETFD completes where RATFD does, and leaves what RATFD, PLLENC, WR NUM 0, WR DEN 1,
MSENC leave but for NUM and DEN (the PLL's fraction), APX and INX (the approximation stage's) and TRUNC (of either
encoder stage; log 16). -/
def Obligations.SetfdEqualsSeparateCommands : Prop :=
  ∀ (s : State) (pll : PllSel) (ch : BitVec 2) (rdiv : BitVec 3) (drv : BitVec 2), ch ≠ 3 →
    s.ref ≠ 0 → s.hmul ≠ 0 → s.maxden ≠ 0 →
    s.freq.toNat * s.div.toNat / (s.ref.toNat * s.hmul.toNat) < 2 ^ 32 →
    ∃ t₁ t₂ t₃, exec .ratfd s = .next t₁ ∧ exec (.pllenc pll) t₁ = .next t₂ ∧
      exec (.msenc pll ch rdiv drv) ((t₂.hostWrite 0 0).hostWrite 1 1) = .next t₃ ∧
      t₁.done = true ∧ t₂.done = true ∧ t₃.done = true ∧
      exec (.setfd pll ch rdiv drv) s = .next
        { t₃ with
          num := t₁.num
          den := t₁.den
          flags := ⟨t₁.flags.apx, t₁.flags.inx, true, t₃.flags.div4, t₂.flags.trunc || t₃.flags.trunc⟩ }

/-- 44_control R181: NOP sets DONE only; its reserved bits must be 0, else ILLCMD. The schedule of events is the
model's choice (log 3). -/
def Obligations.NopSetsDoneOnly : Prop :=
  (∀ s : State, exec .nop s = .next { s with done := true, phase := .idle }) ∧
  (∀ (s : State) (es : List Event), s.phase = .run → s.events = .engine :: es → s.cmdLatch.toNat % 16 = 0 →
    step s = .next
      (if s.cmdLatch.toNat / 4096 = 0 then { s with events := es, done := true, phase := .idle }
       else raised { s with events := es } 1))

/-- 44_control R182: CLRF clears FAULT, CAUSE, DONE and the five flags and nothing else, for every word with its OP;
after it STATUS reads 0. The schedule of events is the model's choice (log 3). -/
def Obligations.ClrfClearsFaultAndFlags : Prop :=
  ∀ s : State, ∃ t, exec .clrf s = .next t ∧ t.statusWord = 0 ∧
    t = { s with
      fault := false, cause := 0, flags := ⟨false, false, false, false, false⟩
      done := false, phase := .idle } ∧
    (∀ es, s.phase = .run → s.events = .engine :: es → s.cmdLatch.toNat % 16 = 14 →
      step s = .next { t with events := es })

/-- 30_encoding R84(a), 60_exceptions R221, R223: every reserved opcode takes the ILLCMD fault. -/
def Obligations.ReservedOpcodesRaiseIllcmd : Prop :=
  ∀ s : State, ∀ i ∈ [Instr.reserved8, .reserved9, .reservedA, .reservedB, .reservedC, .reservedD],
    exec i s = .next (raised s 1)

/-! Whole-machine rules -/

/-- 60_exceptions R221: a completion that raises a fault does the fault record and nothing else. -/
def Obligations.FaultChangesOnlyStatus : Prop :=
  ∀ (i : Instr) (s t : State), exec i s = .next t → s.fault = false → t.fault = true →
    t = raised s t.cause ∧ 1 ≤ t.cause.toNat ∧ t.cause.toNat ≤ 5

/-- 60_exceptions R222: which causes each command word may raise. The schedule of events is the model's choice (log
3). -/
def Obligations.FaultCausesByCommand : Prop :=
  ∀ (s t : State) (es : List Event), s.phase = .run → s.events = .engine :: es → step s = .next t →
    s.fault = false → t.fault = true → t.cause ∈ causesOf (s.cmdLatch.toNat % 16)

/-- 10_state R20, R21: a command writes only the general registers its rule names; the others keep their values. -/
def Obligations.GeneralRegisterFrame : Prop :=
  ∀ (i : Instr) (s t : State), exec i s = .next t → ∀ r : GReg, r ∉ writesOf i → t.getG r = s.getG r

/-- 10_state R20, R21, R28, R29, R31: a command reads only the general registers its rule names (and the chip
constants): two states that agree on them get the same fault, the same transactions and, where there is no fault, the
same DONE, general registers, flags, result registers and TX buffers, of those the command writes. That RESET leaves the
stream as it is is log 6. -/
def Obligations.CommandsReadOnlyTheirOperands : Prop :=
  ∀ (i : Instr) (s s' t t' : State), (∀ r ∈ readsOf i, s.getG r = s'.getG r) → s.chip = s'.chip →
    s.fault = false → s'.fault = false → exec i s = .next t → exec i s' = .next t' →
    t.fault = t'.fault ∧ (t.fault = true → t.cause = t'.cause) ∧
    (t.fault = false →
      t.done = t'.done ∧
      (∀ r ∈ writesOf i, t.getG r = t'.getG r) ∧
      (i ≠ .nop → t.flags = t'.flags) ∧
      (writesPll i = true → t.pp1 = t'.pp1 ∧ t.pp2 = t'.pp2 ∧ t.pp3 = t'.pp3 ∧ t.pllTx = t'.pllTx) ∧
      (writesMs i = true →
        t.mp1 = t'.mp1 ∧ t.mp2 = t'.mp2 ∧ t.mp3 = t'.mp3 ∧ t.msTx = t'.msTx ∧ t.ccTx = t'.ccTx)) ∧
    ∃ e, t.txStream = s.txStream ++ e ∧ t'.txStream = s'.txStream ++ e

/-- 10_state R28: no command reads a flag: changing the flags beforehand changes nothing but flags afterwards. -/
def Obligations.NoCommandReadsFlags : Prop :=
  ∀ (i : Instr) (s : State) (f : ResultFlags), ∃ t g,
    exec i s = .next t ∧ exec i { s with flags := f } = .next { t with flags := g } ∧
    (g = t.flags ∨ (g = f ∧ t.flags = s.flags))

/-- 20_memory R75: an encoding command issued again emits the same transactions again and leaves the same state;
APPROX on its own result returns it unchanged (and, by 40_approx R102 and R104, clears the flags). -/
def Obligations.ReplayIsIdempotent : Prop :=
  (∀ (i : Instr) (s t : State), isEncoding i = true → exec i s = .next t → t.fault = false →
    ∃ e, t.txStream = s.txStream ++ e ∧ exec i t = .next { t with txStream := t.txStream ++ e }) ∧
  (∀ s t : State, exec .approx s = .next t → t.fault = false →
    exec .approx t = .next { t with flags := ⟨false, false, false, false, false⟩ })

/-- 20_memory R67, R66: what a command emits, in order, is what its TX buffers hold; a command that does not complete
emits nothing. -/
def Obligations.EmissionOrder : Prop :=
  ∀ (i : Instr) (s t : State), exec i s = .next t →
    t.txStream = s.txStream ++ (if t.done = true then emissionOf t i else [])

/-- 20_memory R65, R66, R70: every step only appends to the TX stream, whole transactions of 9 or 2 bytes, each at one
of the eight target addresses. That a reset keeps the stream is log 6. -/
def Obligations.TxStreamOnlyGrows : Prop :=
  ∀ s t : State, step s = .next t →
    ∃ e, t.txStream = s.txStream ++ e ∧ ∀ x ∈ e,
      (x.length = 9 ∧ x.head? ∈
        [some s.chip.pllBaseA, some s.chip.pllBaseB, some s.chip.msBase0, some s.chip.msBase1, some s.chip.msBase2]) ∨
      (x.length = 2 ∧ x.head? ∈ [some s.chip.clkCtrl0, some s.chip.clkCtrl1, some s.chip.clkCtrl2])

/-- 10_state R25: while RADE runs, a host access other than RESET leaves every register, the latch and the status as
they were. The schedule, the record and the count of draws are the model's (log 3, log 5, log 6). -/
def Obligations.BusyHoldsEverything : Prop :=
  ∀ s t : State, s.phase = .run → step s = .next t → t.phase = .run →
    { t with events := s.events, reads := s.reads, draws := s.draws } = s

/-- 10_state R25, R26, 30_encoding R82: every step keeps the invariant of the control state. It is about the stored
bits; what STATUS shows of them is log 7. -/
def Obligations.StepKeepsStatusInvariant : Prop :=
  ∀ s t : State, s.StatusInv → step s = .next t → t.StatusInv

/-- 10_state R26: at most one of BUSY, DONE and FAULT is 1 in a STATUS word, and CAUSE is 0 when FAULT is 0; in every
state that meets the invariant, and at every moment of every run from reset. That FAULT and CAUSE read 0 while BUSY is
the model's deduction (log 7); the schedule of events is its choice (log 3). -/
def Obligations.BusyDoneFaultNeverTogether : Prop :=
  (∀ s : State, s.StatusInv → atMostOneShown s.statusWord.toNat) ∧
  ∀ (n : Nat) (es : List Event) (t : State), Sys2Proof.core.run n { State.reset with events := es } = .next t →
    atMostOneShown t.statusWord.toNat

/-- 10_state R29, R31, 41_pllenc R124: every step keeps the TX buffers in agreement with the field registers. -/
def Obligations.StepKeepsBufferInvariant : Prop :=
  ∀ s t : State, s.BufferInv → step s = .next t → t.BufferInv

/-- 10_state R36: both invariants hold after reset, whatever stands beside RADE. -/
def Obligations.InvariantsHoldAtReset : Prop :=
  (State.reset.StatusInv ∧ State.reset.BufferInv) ∧
  ∀ s : State, (resetAround s).StatusInv ∧ (resetAround s).BufferInv

/-- 00_scope R9, 20_memory R61: no step changes the chip constants, and the host's record only grows. Both are the
model's data (log 2, log 6). -/
def Obligations.ChipConstantsNeverChange : Prop :=
  ∀ s t : State, step s = .next t → t.chip = s.chip ∧ ∃ e, t.reads = s.reads ++ e

/-- 60_exceptions R220, R221, 70_reset R257: no state stops the machine, and no command is without a meaning. That
Fault has no constructor is log 14. -/
def Obligations.EveryStepHasANextState : Prop :=
  ∀ s : State, (∃ t, step s = .next t) ∧ ∀ i : Instr, ∃ t, exec i s = .next t ∧ t.phase = .idle

/-- 70_reset R257: whatever the schedule, every accepted command completes and BUSY returns to 0. The schedule, and
the engine's turn when it is empty, are the model's choice (log 3, log 4). -/
def Obligations.EveryCommandCompletes : Prop :=
  ∀ s : State, ∃ t : State,
    Sys2Proof.core.run (s.events.length + 1) s = .next t ∧ t.phase = .idle ∧ t.events = []

/-- 70_reset R249, R250: a host that respects BUSY loses no operand, drops no command of a fault-free RADE and meets
no unspecified value. The schedule of events is the model's choice (log 3). -/
def Obligations.RespectfulHostLosesNothing : Prop :=
  ∀ s t : State, s.respectsBusy = true → step s = .next t →
    t.draws = s.draws ∧
    (∀ (r : GReg) (v : Word) (es : List Event), s.events = .hostWrite r.index v :: es → t.getG r = v) ∧
    (∀ (w : Word) (es : List Event), s.events = .hostWrite 8 w :: es → s.fault = false → w.toNat % 16 ≠ 15 →
      t.phase = .run ∧ t.cmdLatch = w) ∧
    (∀ (i : RegIndex) (es : List Event), s.events = .hostRead i :: es →
      t.reads = s.reads ++ [(i, s.regWord i)])

/-- 20_memory R62, R71, 70_reset R249: a write to NUM without a WAIT: dropped when it comes before the completion,
kept when it comes after. The schedule of events is the model's choice (log 3). -/
def Obligations.UnwaitedWriteHasTwoOutcomes : Prop :=
  ∀ s : State, s.phase = .idle → s.fault = false →
    s.num = 2000000 → s.den = 10000000 → s.maxden = 1048575 →
    (∃ t : State, Sys2Proof.core.run 3 { s with events := [.hostWrite 8 1, .hostWrite 0 5, .engine] } = .next t ∧
      t.num = 1 ∧ t.den = 5) ∧
    (∃ t : State, Sys2Proof.core.run 3 { s with events := [.hostWrite 8 1, .engine, .hostWrite 0 5] } = .next t ∧
      t.num = 5 ∧ t.den = 5)
end

