-- ==== Sys2Proof/Machine/AnyWidth.lean ====
section
/-! DEFINITION. The machine at any XLEN (00_scope R8). At the default 32 it is `exec` and `step`
(Laws/AnyWidth.lean). -/

namespace Sys2Proof.Machine

variable {xlen : Nat}

/-- The completion step of each command, at any XLEN. -/
def execAt (i : Instr) (s : State xlen) : Host.Outcome (State xlen) Fault Refusal :=
  match i with
  | .nop => execNop s
  | .approx => execApprox s
  | .pllenc pll => execPllenc pll s
  | .msenc pll ch rdiv drv => execMsenc pll ch rdiv drv s
  | .ratfp => execRatfp s
  | .ratfd => execRatfd s
  | .setfp pll ch rdiv drv => execSetfp pll ch rdiv drv s
  | .setfd pll ch rdiv drv => execSetfd pll ch rdiv drv s
  | .reserved8 => execReserved8 s
  | .reserved9 => execReserved9 s
  | .reservedA => execReservedA s
  | .reservedB => execReservedB s
  | .reservedC => execReservedC s
  | .reservedD => execReservedD s
  | .clrf => execClrf s
  | .reset => execReset s

/-- One step, at any XLEN. -/
def stepAt (s : State xlen) : Host.Outcome (State xlen) Fault Refusal := stepWith execAt s

end Sys2Proof.Machine
end

