-- ==== Sys2Proof/Laws/AnyWidth.lean ====
section
/-! SUPPORT. At the default XLEN the machine of any width is the machine the host runs. -/

namespace Sys2Proof.Machine

theorem execAt_default (i : Instr) (s : State) : execAt i s = exec i s := by cases i <;> rfl

theorem stepAt_default (s : State) : stepAt s = step s := by
  have h : (execAt : Instr → State → Host.Outcome State Fault Refusal) = exec :=
    funext fun i => funext fun s => execAt_default i s
  simp only [stepAt, step, h]

end Sys2Proof.Machine
end

