-- ==== Sys2Proof/Laws/Arith.lean ====
section
/-! SUPPORT. What the pure functions of Machine/Arith.lean can answer, said once. -/

namespace Sys2Proof.Machine

@[simp] theorem convStart_p0 (n d : Nat) : (convStart n d).p0 = 0 := rfl
@[simp] theorem convStart_q0 (n d : Nat) : (convStart n d).q0 = 1 := rfl
@[simp] theorem convStart_p1 (n d : Nat) : (convStart n d).p1 = 1 := rfl
@[simp] theorem convStart_q1 (n d : Nat) : (convStart n d).q1 = 0 := rfl
@[simp] theorem convStart_n (n d : Nat) : (convStart n d).n = n := rfl
@[simp] theorem convStart_d (n d : Nat) : (convStart n d).d = d := rfl
@[simp] theorem ConvState.advance_p0 (c : ConvState) : c.advance.p0 = c.p1 := rfl
@[simp] theorem ConvState.advance_q0 (c : ConvState) : c.advance.q0 = c.q1 := rfl
@[simp] theorem ConvState.advance_p1 (c : ConvState) : c.advance.p1 = c.p2 := rfl
@[simp] theorem ConvState.advance_q1 (c : ConvState) : c.advance.q1 = c.q2 := rfl
@[simp] theorem ConvState.advance_n (c : ConvState) : c.advance.n = c.d := rfl

/-- The next remainder of the loop: n - a*d = n mod d (00_scope R12). -/
@[simp] theorem ConvState.advance_d (c : ConvState) : c.advance.d = c.n % c.d := by
  have h := Nat.div_add_mod c.n c.d
  simp only [ConvState.advance, ConvState.quot]
  rw [Nat.mul_comm]
  omega

/-- The remainder falls at every advance, which is why the loop ends (40_approx R108). -/
theorem ConvState.advance_d_lt (c : ConvState) (h : c.d ≠ 0) : c.advance.d < c.d := by
  rw [ConvState.advance_d]
  exact Nat.mod_lt _ (Nat.pos_of_ne_zero h)

/-- The loop's exit on d = 0 (40_approx R103). -/
theorem approxLoop_exact {m fuel : Nat} {c : ConvState} (h : c.d = 0) :
    approxLoop m fuel c = ⟨c.p1, c.q1, true, false⟩ := by
  cases fuel <;> simp [approxLoop, h]

/-- The loop's exit on the bound (40_approx R103). -/
theorem approxLoop_cut {m fuel : Nat} {c : ConvState} (h : c.d ≠ 0) (hq : m < c.q2) :
    approxLoop m (fuel + 1) c = ⟨c.p1, c.q1, true, true⟩ := by
  simp [approxLoop, h, hq]

/-- The loop's advance (40_approx R103). -/
theorem approxLoop_advance {m fuel : Nat} {c : ConvState} (h : c.d ≠ 0) (hq : c.q2 ≤ m) :
    approxLoop m (fuel + 1) c = approxLoop m fuel c.advance := by
  simp [approxLoop, h, Nat.not_lt.mpr hq]

/-- The loop's induction, packaged: a property that every advance keeps holds of the state the loop stops in, and
that state says which exit was taken. -/
theorem approxLoop_stops {P : ConvState → Prop} {m : Nat}
    (keeps : ∀ c, P c → c.d ≠ 0 → c.q2 ≤ m → P c.advance) :
    ∀ (fuel : Nat) (c : ConvState), P c → c.d < fuel →
      ∃ e, P e ∧ ((e.d = 0 ∧ approxLoop m fuel c = ⟨e.p1, e.q1, true, false⟩) ∨
        (e.d ≠ 0 ∧ m < e.q2 ∧ approxLoop m fuel c = ⟨e.p1, e.q1, true, true⟩)) := by
  intro fuel
  induction fuel with
  | zero => intro c _ h; exact absurd h (Nat.not_lt_zero _)
  | succ fuel ih =>
    intro c hP hf
    by_cases hd : c.d = 0
    · exact ⟨c, hP, .inl ⟨hd, approxLoop_exact hd⟩⟩
    · by_cases hq : m < c.q2
      · exact ⟨c, hP, .inr ⟨hd, hq, approxLoop_cut hd hq⟩⟩
      · have hq' : c.q2 ≤ m := Nat.le_of_not_lt hq
        have hlt := c.advance_d_lt hd
        obtain ⟨e, he, h⟩ := ih c.advance (keeps c hP hd hq') (by omega)
        rw [approxLoop_advance hd hq']
        exact ⟨e, he, h⟩

/-- A fuel above the remainder is never used up: the result does not depend on it (log 10). -/
theorem approxLoop_fuel (m : Nat) :
    ∀ (f g : Nat) (c : ConvState), c.d < f → c.d < g → approxLoop m f c = approxLoop m g c := by
  intro f
  induction f with
  | zero => intro g c h; exact absurd h (Nat.not_lt_zero _)
  | succ f ih =>
    intro g c hf hg
    cases g with
    | zero => exact absurd hg (Nat.not_lt_zero _)
    | succ g =>
      by_cases hd : c.d = 0
      · rw [approxLoop_exact hd, approxLoop_exact hd]
      · have hlt := c.advance_d_lt hd
        by_cases hq : m < c.q2
        · rw [approxLoop_cut hd hq, approxLoop_cut hd hq]
        · have hq' : c.q2 ≤ m := Nat.le_of_not_lt hq
          rw [approxLoop_advance hd hq', approxLoop_advance hd hq']
          exact ih g c.advance (by omega) (by omega)

/-- Everything `approx` can answer (40_approx R101). -/
theorem approx_cases (n d m : Nat) :
    (d = 0 ∧ approx n d m = .error .zeroden) ∨
    (d ≠ 0 ∧ d ≤ m ∧ approx n d m = .ok ⟨n, d, false, false⟩) ∨
    (d ≠ 0 ∧ m = 0 ∧ approx n d m = .error .zeromax) ∨
    (m ≠ 0 ∧ m < d ∧ approx n d m = .ok (approxLoop m (d + 1) (convStart n d))) := by
  unfold approx
  split
  · exact .inl ⟨‹_›, rfl⟩
  · split
    · exact .inr (.inl ⟨‹_›, ‹_›, rfl⟩)
    · split
      · exact .inr (.inr (.inl ⟨‹_›, ‹_›, rfl⟩))
      · exact .inr (.inr (.inr ⟨‹_›, by omega, rfl⟩))

/-- Everything `fields` can answer (41_pllenc R121). -/
theorem fields_cases (ip num den : Nat) :
    (num = 0 ∧ fields ip num den = .ok ⟨128 * (ip : Int) - 512, 0, 1⟩) ∨
    (num ≠ 0 ∧ den = 0 ∧ fields ip num den = .error .divzero) ∨
    (num ≠ 0 ∧ den ≠ 0 ∧ fields ip num den =
      .ok ⟨128 * (ip : Int) + (128 * num / den : Nat) - 512, ((128 * num % den : Nat) : Int), den⟩) := by
  unfold fields
  split
  · exact .inl ⟨‹_›, rfl⟩
  · split
    · exact .inr (.inl ⟨‹_›, ‹_›, rfl⟩)
    · refine .inr (.inr ⟨‹_›, ‹_›, ?_⟩)
      have h : ((128 * num % den : Nat) : Int) = 128 * num - den * (128 * num / den : Nat) := by
        have := Nat.div_add_mod (128 * num) den
        omega
      simp [h]

/-- The OVERFLOW test in numbers: a quotient exceeds 2^XLEN - 1 (60_exceptions R226). -/
theorem overflow_iff (xlen q : Nat) : q > Config.maxWord xlen ↔ 2 ^ xlen ≤ q := by
  have := Nat.two_pow_pos xlen
  simp only [Config.maxWord]
  omega

/-- `ratioStage` once its approximation has succeeded: only OVERFLOW is left (43_ratio R156, R159). -/
theorem ratioStage_of_approx {xlen t den m : Nat} {r : ApproxResult} (hd : den ≠ 0)
    (hr : approx (t % den) den m = .ok r) :
    ratioStage xlen t den m = if 2 ^ xlen ≤ t / den then .error .overflow else .ok ⟨t / den, r⟩ := by
  have hmod : t - den * (t / den) = t % den := by
    have := Nat.div_add_mod t den
    omega
  unfold ratioStage
  rw [if_neg hd, hmod, hr]
  simp only [overflow_iff]

/-- Everything `ratioStage` can answer (43_ratio R156, R159), its faults in their order. -/
theorem ratioStage_cases (xlen t den m : Nat) :
    (den = 0 ∧ ratioStage xlen t den m = .error .divzero) ∨
    (den ≠ 0 ∧ m = 0 ∧ ratioStage xlen t den m = .error .zeromax) ∨
    (den ≠ 0 ∧ m ≠ 0 ∧ ∃ r, approx (t % den) den m = .ok r ∧
      ratioStage xlen t den m = if 2 ^ xlen ≤ t / den then .error .overflow else .ok ⟨t / den, r⟩) := by
  by_cases hd : den = 0
  · exact .inl ⟨hd, by simp [ratioStage, hd]⟩
  · rcases approx_cases (t % den) den m with ⟨h, _⟩ | ⟨_, h, hr⟩ | ⟨_, h, _⟩ | ⟨h, _, hr⟩
    · exact absurd h hd
    · exact .inr (.inr ⟨hd, by omega, _, hr, ratioStage_of_approx hd hr⟩)
    · refine .inr (.inl ⟨hd, h, ?_⟩)
      have hz : ∀ n, approx n den m = .error .zeromax := by
        intro n
        simp [approx, hd, h]
      unfold ratioStage
      rw [if_neg hd, hz]
    · exact .inr (.inr ⟨hd, h, _, hr, ratioStage_of_approx hd hr⟩)

end Sys2Proof.Machine
end

