-- ==== Sys2Proof/Laws/Encoding.lean ====
section
/-! SUPPORT. The fields of a command word in plain arithmetic on the word, and the word format C builds. -/

namespace Sys2Proof

/-- OP is the word modulo 16 (30_encoding R80). -/
theorem opField_toNat (w : BitVec 32) : (opField w).toNat = w.toNat % 16 := by
  simp [opField, BitVec.extractLsb'_toNat]

/-- PLL is bit 4 (30_encoding R80). -/
theorem pllField_eq (w : BitVec 32) : pllField w = if w.toNat / 16 % 2 = 1 then .b else .a := by
  have h : (w.extractLsb' 4 1 = 1) ↔ w.toNat / 16 % 2 = 1 := by
    rw [← BitVec.toNat_inj, BitVec.extractLsb'_toNat, Nat.shiftRight_eq_div_pow]
    rfl
  simp only [pllField, h]

/-- CH is bits 6:5 (30_encoding R80). -/
theorem chField_toNat (w : BitVec 32) : (chField w).toNat = w.toNat / 32 % 4 := by
  simp [chField, BitVec.extractLsb'_toNat, Nat.shiftRight_eq_div_pow]

/-- RDIV is bits 9:7 (30_encoding R80). -/
theorem rdivField_toNat (w : BitVec 32) : (rdivField w).toNat = w.toNat / 128 % 8 := by
  simp [rdivField, BitVec.extractLsb'_toNat, Nat.shiftRight_eq_div_pow]

/-- DRV is bits 11:10 (30_encoding R80). -/
theorem drvField_toNat (w : BitVec 32) : (drvField w).toNat = w.toNat / 1024 % 4 := by
  simp [drvField, BitVec.extractLsb'_toNat, Nat.shiftRight_eq_div_pow]

/-- The reserved bits are the word from bit 12 up (30_encoding R80). -/
theorem reservedField_toNat (w : BitVec 32) : (reservedField w).toNat = w.toNat / 4096 := by
  have := w.isLt
  simp [reservedField, BitVec.extractLsb'_toNat, Nat.shiftRight_eq_div_pow]
  omega

/-- A concatenation's value: the high part above the low part. -/
theorem append_toNat {n m : Nat} (x : BitVec n) (y : BitVec m) : (x ++ y).toNat = x.toNat * 2 ^ m + y.toNat := by
  rw [BitVec.toNat_append, ← Nat.shiftLeft_add_eq_or_of_lt y.isLt, Nat.shiftLeft_eq]

/-- The word of format C: OP | PLL << 4 | CH << 5 | RDIV << 7 | DRV << 10 (30_encoding R87). -/
theorem formatC_toNat (op : BitVec 4) (pll : BitVec 1) (ch : BitVec 2) (rdiv : BitVec 3) (drv : BitVec 2) :
    (formatC op pll ch rdiv drv).toNat =
      op.toNat + 16 * pll.toNat + 32 * ch.toNat + 128 * rdiv.toNat + 1024 * drv.toNat := by
  have h : (formatC op pll ch rdiv drv).toNat =
      (((((0 : BitVec 20).toNat * 2 ^ 2 + drv.toNat) * 2 ^ 3 + rdiv.toNat) * 2 ^ 2 + ch.toNat) * 2 ^ 1 + pll.toNat) *
        2 ^ 4 + op.toNat := by
    rw [← append_toNat, ← append_toNat, ← append_toNat, ← append_toNat, ← append_toNat]
    rfl
  rw [h]
  simp
  omega

end Sys2Proof
end

