-- ==== Sys2Proof/Laws/Operands.lean ====
section
/-! SUPPORT. What the channel codes name and what the two encoders can answer, said once. -/

namespace Sys2Proof.Machine

@[simp] theorem channelOf_zero : channelOf 0 = some .ch0 := rfl
@[simp] theorem channelOf_one : channelOf 1 = some .ch1 := rfl
@[simp] theorem channelOf_two : channelOf 2 = some .ch2 := rfl
@[simp] theorem channelOf_three : channelOf 3 = none := rfl

/-- Code 3 alone names no channel (30_encoding R80). -/
theorem channelOf_eq_none_iff (ch : BitVec 2) : channelOf ch = none ↔ ch = 3 := by
  revert ch
  decide

/-- The fields of an output divider with DIV = 4 (42_msenc R137). -/
@[simp] theorem msFields_four (num den : Nat) : msFields 4 num den = .ok ⟨0, 0, 1⟩ := rfl

/-- The fields of every other output divider (42_msenc R138). -/
theorem msFields_of_ne {div : Nat} (h : div ≠ 4) (num den : Nat) : msFields div num den = fields div num den := by
  simp [msFields, h]

/-- `msFields` faults only with a division by zero: DIV ≠ 4, num ≠ 0, den = 0 (42_msenc R146). -/
theorem msFields_error {div num den : Nat} {c : Cause} (h : msFields div num den = .error c) :
    c = .divzero ∧ div ≠ 4 ∧ num ≠ 0 ∧ den = 0 := by
  by_cases h4 : div = 4
  · subst h4
    simp at h
  · rw [msFields_of_ne h4] at h
    rcases fields_cases div num den with ⟨_, hr⟩ | ⟨hn, hd, hr⟩ | ⟨_, _, hr⟩ <;> rw [hr] at h <;> cases h
    exact ⟨rfl, h4, hn, hd⟩

/-- The PLL encoder answers as its fields do (41_pllenc R125). -/
theorem encodePll_of_fields {ip num den : Nat} {raw : RawFields} (chip : ChipParams) (pll : PllSel)
    (h : fields ip num den = .ok raw) :
    encodePll chip pll ip num den = .ok ⟨reduce raw,
      dividerTx (pllBase chip pll) (payload (reduce raw).p1 (reduce raw).p2 (reduce raw).p3 0)⟩ := by
  simp only [encodePll, h]

/-- The PLL encoder's one fault (41_pllenc R129). -/
theorem encodePll_of_fields_error {ip num den : Nat} {c : Cause} (chip : ChipParams) (pll : PllSel)
    (h : fields ip num den = .error c) : encodePll chip pll ip num den = .error c := by
  simp only [encodePll, h]

/-- The output-divider encoder answers as its fields do (42_msenc R136). -/
theorem encodeMs_of_fields {div num den : Nat} {raw : RawFields} (chip : ChipParams) (pll : PllSel) (c : Channel)
    (rdiv : BitVec 3) (drv : BitVec 2) (h : msFields div num den = .ok raw) :
    encodeMs chip pll c rdiv drv div num den = .ok ⟨reduce raw,
      dividerTx (msBase chip c)
        (payload (reduce raw).p1 (reduce raw).p2 (reduce raw).p3 (msOr2 chip (div == 4) rdiv)),
      #v[clkCtrl chip c, clockControl chip pll drv (num == 0)]⟩ := by
  simp only [encodeMs, h]

/-- The output-divider encoder's one fault (42_msenc R146). -/
theorem encodeMs_of_fields_error {div num den : Nat} {f : Cause} (chip : ChipParams) (pll : PllSel) (c : Channel)
    (rdiv : BitVec 3) (drv : BitVec 2) (h : msFields div num den = .error f) :
    encodeMs chip pll c rdiv drv div num den = .error f := by
  simp only [encodeMs, h]

/-- The shape of a PLL transaction: nine bytes, the base first, the fields in the payload layout (41_pllenc R125). -/
theorem encodePll_tx {chip : ChipParams} {pll : PllSel} {ip num den : Nat} {e : PllEncoding}
    (h : encodePll chip pll ip num den = .ok e) :
    e.tx.toList.length = 9 ∧ e.tx.toList.head? = some (pllBase chip pll) ∧
      e.tx = dividerTx e.tx[0] (payload e.fields.p1 e.fields.p2 e.fields.p3 0) := by
  cases hf : fields ip num den with
  | error c => rw [encodePll_of_fields_error _ _ hf] at h; cases h
  | ok raw => rw [encodePll_of_fields _ _ hf] at h; cases h; simp [dividerTx]

/-- The shape of an output divider's two transactions (42_msenc R141, R142). -/
theorem encodeMs_tx {chip : ChipParams} {pll : PllSel} {c : Channel} {rdiv : BitVec 3} {drv : BitVec 2}
    {div num den : Nat} {e : MsEncoding} (h : encodeMs chip pll c rdiv drv div num den = .ok e) :
    e.tx.toList.length = 9 ∧ e.tx.toList.head? = some (msBase chip c) ∧
      e.cc.toList.length = 2 ∧ e.cc.toList.head? = some (clkCtrl chip c) ∧
      e.tx = dividerTx e.tx[0] (payload e.fields.p1 e.fields.p2 e.fields.p3 e.tx[3]) := by
  cases hf : msFields div num den with
  | error c => rw [encodeMs_of_fields_error _ _ _ _ _ hf] at h; cases h
  | ok raw =>
    rw [encodeMs_of_fields _ _ _ _ _ hf] at h
    cases h
    simp [dividerTx, payload, ← BitVec.or_assoc]

end Sys2Proof.Machine
end

