-- ==== Sys2Proof/Laws/State.lean ====
section
/-! SUPPORT. One lemma per field per update of State, true by rfl: no later proof unfolds a record update. -/

namespace Sys2Proof.Machine

variable {xlen : Nat} (s : State xlen)

@[simp] theorem State.raise_num (c : Cause) : (s.raise c).num = s.num := rfl
@[simp] theorem State.raise_den (c : Cause) : (s.raise c).den = s.den := rfl
@[simp] theorem State.raise_maxden (c : Cause) : (s.raise c).maxden = s.maxden := rfl
@[simp] theorem State.raise_mult (c : Cause) : (s.raise c).mult = s.mult := rfl
@[simp] theorem State.raise_div (c : Cause) : (s.raise c).div = s.div := rfl
@[simp] theorem State.raise_freq (c : Cause) : (s.raise c).freq = s.freq := rfl
@[simp] theorem State.raise_ref (c : Cause) : (s.raise c).ref = s.ref := rfl
@[simp] theorem State.raise_hmul (c : Cause) : (s.raise c).hmul = s.hmul := rfl
@[simp] theorem State.raise_phase (c : Cause) : (s.raise c).phase = .idle := rfl
@[simp] theorem State.raise_cmdLatch (c : Cause) : (s.raise c).cmdLatch = s.cmdLatch := rfl
@[simp] theorem State.raise_done (c : Cause) : (s.raise c).done = false := rfl
@[simp] theorem State.raise_fault (c : Cause) : (s.raise c).fault = true := rfl
@[simp] theorem State.raise_cause (c : Cause) : (s.raise c).cause = c.code := rfl
@[simp] theorem State.raise_flags (c : Cause) : (s.raise c).flags = s.flags := rfl
@[simp] theorem State.raise_pp1 (c : Cause) : (s.raise c).pp1 = s.pp1 := rfl
@[simp] theorem State.raise_pp2 (c : Cause) : (s.raise c).pp2 = s.pp2 := rfl
@[simp] theorem State.raise_pp3 (c : Cause) : (s.raise c).pp3 = s.pp3 := rfl
@[simp] theorem State.raise_mp1 (c : Cause) : (s.raise c).mp1 = s.mp1 := rfl
@[simp] theorem State.raise_mp2 (c : Cause) : (s.raise c).mp2 = s.mp2 := rfl
@[simp] theorem State.raise_mp3 (c : Cause) : (s.raise c).mp3 = s.mp3 := rfl
@[simp] theorem State.raise_pllTx (c : Cause) : (s.raise c).pllTx = s.pllTx := rfl
@[simp] theorem State.raise_msTx (c : Cause) : (s.raise c).msTx = s.msTx := rfl
@[simp] theorem State.raise_ccTx (c : Cause) : (s.raise c).ccTx = s.ccTx := rfl
@[simp] theorem State.raise_chip (c : Cause) : (s.raise c).chip = s.chip := rfl
@[simp] theorem State.raise_txStream (c : Cause) : (s.raise c).txStream = s.txStream := rfl
@[simp] theorem State.raise_reads (c : Cause) : (s.raise c).reads = s.reads := rfl
@[simp] theorem State.raise_draws (c : Cause) : (s.raise c).draws = s.draws := rfl
@[simp] theorem State.raise_events (c : Cause) : (s.raise c).events = s.events := rfl

@[simp] theorem State.clearFault_num : (s.clearFault).num = s.num := rfl
@[simp] theorem State.clearFault_den : (s.clearFault).den = s.den := rfl
@[simp] theorem State.clearFault_maxden : (s.clearFault).maxden = s.maxden := rfl
@[simp] theorem State.clearFault_mult : (s.clearFault).mult = s.mult := rfl
@[simp] theorem State.clearFault_div : (s.clearFault).div = s.div := rfl
@[simp] theorem State.clearFault_freq : (s.clearFault).freq = s.freq := rfl
@[simp] theorem State.clearFault_ref : (s.clearFault).ref = s.ref := rfl
@[simp] theorem State.clearFault_hmul : (s.clearFault).hmul = s.hmul := rfl
@[simp] theorem State.clearFault_phase : (s.clearFault).phase = .idle := rfl
@[simp] theorem State.clearFault_cmdLatch : (s.clearFault).cmdLatch = s.cmdLatch := rfl
@[simp] theorem State.clearFault_done : (s.clearFault).done = false := rfl
@[simp] theorem State.clearFault_fault : (s.clearFault).fault = false := rfl
@[simp] theorem State.clearFault_cause : (s.clearFault).cause = 0 := rfl
@[simp] theorem State.clearFault_flags : (s.clearFault).flags = ResultFlags.clear := rfl
@[simp] theorem State.clearFault_pp1 : (s.clearFault).pp1 = s.pp1 := rfl
@[simp] theorem State.clearFault_pp2 : (s.clearFault).pp2 = s.pp2 := rfl
@[simp] theorem State.clearFault_pp3 : (s.clearFault).pp3 = s.pp3 := rfl
@[simp] theorem State.clearFault_mp1 : (s.clearFault).mp1 = s.mp1 := rfl
@[simp] theorem State.clearFault_mp2 : (s.clearFault).mp2 = s.mp2 := rfl
@[simp] theorem State.clearFault_mp3 : (s.clearFault).mp3 = s.mp3 := rfl
@[simp] theorem State.clearFault_pllTx : (s.clearFault).pllTx = s.pllTx := rfl
@[simp] theorem State.clearFault_msTx : (s.clearFault).msTx = s.msTx := rfl
@[simp] theorem State.clearFault_ccTx : (s.clearFault).ccTx = s.ccTx := rfl
@[simp] theorem State.clearFault_chip : (s.clearFault).chip = s.chip := rfl
@[simp] theorem State.clearFault_txStream : (s.clearFault).txStream = s.txStream := rfl
@[simp] theorem State.clearFault_reads : (s.clearFault).reads = s.reads := rfl
@[simp] theorem State.clearFault_draws : (s.clearFault).draws = s.draws := rfl
@[simp] theorem State.clearFault_events : (s.clearFault).events = s.events := rfl

@[simp] theorem State.complete_num : (s.complete).num = s.num := rfl
@[simp] theorem State.complete_den : (s.complete).den = s.den := rfl
@[simp] theorem State.complete_maxden : (s.complete).maxden = s.maxden := rfl
@[simp] theorem State.complete_mult : (s.complete).mult = s.mult := rfl
@[simp] theorem State.complete_div : (s.complete).div = s.div := rfl
@[simp] theorem State.complete_freq : (s.complete).freq = s.freq := rfl
@[simp] theorem State.complete_ref : (s.complete).ref = s.ref := rfl
@[simp] theorem State.complete_hmul : (s.complete).hmul = s.hmul := rfl
@[simp] theorem State.complete_phase : (s.complete).phase = .idle := rfl
@[simp] theorem State.complete_cmdLatch : (s.complete).cmdLatch = s.cmdLatch := rfl
@[simp] theorem State.complete_done : (s.complete).done = true := rfl
@[simp] theorem State.complete_fault : (s.complete).fault = s.fault := rfl
@[simp] theorem State.complete_cause : (s.complete).cause = s.cause := rfl
@[simp] theorem State.complete_flags : (s.complete).flags = s.flags := rfl
@[simp] theorem State.complete_pp1 : (s.complete).pp1 = s.pp1 := rfl
@[simp] theorem State.complete_pp2 : (s.complete).pp2 = s.pp2 := rfl
@[simp] theorem State.complete_pp3 : (s.complete).pp3 = s.pp3 := rfl
@[simp] theorem State.complete_mp1 : (s.complete).mp1 = s.mp1 := rfl
@[simp] theorem State.complete_mp2 : (s.complete).mp2 = s.mp2 := rfl
@[simp] theorem State.complete_mp3 : (s.complete).mp3 = s.mp3 := rfl
@[simp] theorem State.complete_pllTx : (s.complete).pllTx = s.pllTx := rfl
@[simp] theorem State.complete_msTx : (s.complete).msTx = s.msTx := rfl
@[simp] theorem State.complete_ccTx : (s.complete).ccTx = s.ccTx := rfl
@[simp] theorem State.complete_chip : (s.complete).chip = s.chip := rfl
@[simp] theorem State.complete_txStream : (s.complete).txStream = s.txStream := rfl
@[simp] theorem State.complete_reads : (s.complete).reads = s.reads := rfl
@[simp] theorem State.complete_draws : (s.complete).draws = s.draws := rfl
@[simp] theorem State.complete_events : (s.complete).events = s.events := rfl

@[simp] theorem State.setFlags_num (f : ResultFlags) : (s.setFlags f).num = s.num := rfl
@[simp] theorem State.setFlags_den (f : ResultFlags) : (s.setFlags f).den = s.den := rfl
@[simp] theorem State.setFlags_maxden (f : ResultFlags) : (s.setFlags f).maxden = s.maxden := rfl
@[simp] theorem State.setFlags_mult (f : ResultFlags) : (s.setFlags f).mult = s.mult := rfl
@[simp] theorem State.setFlags_div (f : ResultFlags) : (s.setFlags f).div = s.div := rfl
@[simp] theorem State.setFlags_freq (f : ResultFlags) : (s.setFlags f).freq = s.freq := rfl
@[simp] theorem State.setFlags_ref (f : ResultFlags) : (s.setFlags f).ref = s.ref := rfl
@[simp] theorem State.setFlags_hmul (f : ResultFlags) : (s.setFlags f).hmul = s.hmul := rfl
@[simp] theorem State.setFlags_phase (f : ResultFlags) : (s.setFlags f).phase = s.phase := rfl
@[simp] theorem State.setFlags_cmdLatch (f : ResultFlags) : (s.setFlags f).cmdLatch = s.cmdLatch := rfl
@[simp] theorem State.setFlags_done (f : ResultFlags) : (s.setFlags f).done = s.done := rfl
@[simp] theorem State.setFlags_fault (f : ResultFlags) : (s.setFlags f).fault = s.fault := rfl
@[simp] theorem State.setFlags_cause (f : ResultFlags) : (s.setFlags f).cause = s.cause := rfl
@[simp] theorem State.setFlags_flags (f : ResultFlags) : (s.setFlags f).flags = f := rfl
@[simp] theorem State.setFlags_pp1 (f : ResultFlags) : (s.setFlags f).pp1 = s.pp1 := rfl
@[simp] theorem State.setFlags_pp2 (f : ResultFlags) : (s.setFlags f).pp2 = s.pp2 := rfl
@[simp] theorem State.setFlags_pp3 (f : ResultFlags) : (s.setFlags f).pp3 = s.pp3 := rfl
@[simp] theorem State.setFlags_mp1 (f : ResultFlags) : (s.setFlags f).mp1 = s.mp1 := rfl
@[simp] theorem State.setFlags_mp2 (f : ResultFlags) : (s.setFlags f).mp2 = s.mp2 := rfl
@[simp] theorem State.setFlags_mp3 (f : ResultFlags) : (s.setFlags f).mp3 = s.mp3 := rfl
@[simp] theorem State.setFlags_pllTx (f : ResultFlags) : (s.setFlags f).pllTx = s.pllTx := rfl
@[simp] theorem State.setFlags_msTx (f : ResultFlags) : (s.setFlags f).msTx = s.msTx := rfl
@[simp] theorem State.setFlags_ccTx (f : ResultFlags) : (s.setFlags f).ccTx = s.ccTx := rfl
@[simp] theorem State.setFlags_chip (f : ResultFlags) : (s.setFlags f).chip = s.chip := rfl
@[simp] theorem State.setFlags_txStream (f : ResultFlags) : (s.setFlags f).txStream = s.txStream := rfl
@[simp] theorem State.setFlags_reads (f : ResultFlags) : (s.setFlags f).reads = s.reads := rfl
@[simp] theorem State.setFlags_draws (f : ResultFlags) : (s.setFlags f).draws = s.draws := rfl
@[simp] theorem State.setFlags_events (f : ResultFlags) : (s.setFlags f).events = s.events := rfl

@[simp] theorem State.emit_num (t : Transaction) : (s.emit t).num = s.num := rfl
@[simp] theorem State.emit_den (t : Transaction) : (s.emit t).den = s.den := rfl
@[simp] theorem State.emit_maxden (t : Transaction) : (s.emit t).maxden = s.maxden := rfl
@[simp] theorem State.emit_mult (t : Transaction) : (s.emit t).mult = s.mult := rfl
@[simp] theorem State.emit_div (t : Transaction) : (s.emit t).div = s.div := rfl
@[simp] theorem State.emit_freq (t : Transaction) : (s.emit t).freq = s.freq := rfl
@[simp] theorem State.emit_ref (t : Transaction) : (s.emit t).ref = s.ref := rfl
@[simp] theorem State.emit_hmul (t : Transaction) : (s.emit t).hmul = s.hmul := rfl
@[simp] theorem State.emit_phase (t : Transaction) : (s.emit t).phase = s.phase := rfl
@[simp] theorem State.emit_cmdLatch (t : Transaction) : (s.emit t).cmdLatch = s.cmdLatch := rfl
@[simp] theorem State.emit_done (t : Transaction) : (s.emit t).done = s.done := rfl
@[simp] theorem State.emit_fault (t : Transaction) : (s.emit t).fault = s.fault := rfl
@[simp] theorem State.emit_cause (t : Transaction) : (s.emit t).cause = s.cause := rfl
@[simp] theorem State.emit_flags (t : Transaction) : (s.emit t).flags = s.flags := rfl
@[simp] theorem State.emit_pp1 (t : Transaction) : (s.emit t).pp1 = s.pp1 := rfl
@[simp] theorem State.emit_pp2 (t : Transaction) : (s.emit t).pp2 = s.pp2 := rfl
@[simp] theorem State.emit_pp3 (t : Transaction) : (s.emit t).pp3 = s.pp3 := rfl
@[simp] theorem State.emit_mp1 (t : Transaction) : (s.emit t).mp1 = s.mp1 := rfl
@[simp] theorem State.emit_mp2 (t : Transaction) : (s.emit t).mp2 = s.mp2 := rfl
@[simp] theorem State.emit_mp3 (t : Transaction) : (s.emit t).mp3 = s.mp3 := rfl
@[simp] theorem State.emit_pllTx (t : Transaction) : (s.emit t).pllTx = s.pllTx := rfl
@[simp] theorem State.emit_msTx (t : Transaction) : (s.emit t).msTx = s.msTx := rfl
@[simp] theorem State.emit_ccTx (t : Transaction) : (s.emit t).ccTx = s.ccTx := rfl
@[simp] theorem State.emit_chip (t : Transaction) : (s.emit t).chip = s.chip := rfl
@[simp] theorem State.emit_txStream (t : Transaction) : (s.emit t).txStream = s.txStream ++ [t] := rfl
@[simp] theorem State.emit_reads (t : Transaction) : (s.emit t).reads = s.reads := rfl
@[simp] theorem State.emit_draws (t : Transaction) : (s.emit t).draws = s.draws := rfl
@[simp] theorem State.emit_events (t : Transaction) : (s.emit t).events = s.events := rfl

@[simp] theorem State.putPll_num (e : PllEncoding) : (s.putPll e).num = s.num := rfl
@[simp] theorem State.putPll_den (e : PllEncoding) : (s.putPll e).den = s.den := rfl
@[simp] theorem State.putPll_maxden (e : PllEncoding) : (s.putPll e).maxden = s.maxden := rfl
@[simp] theorem State.putPll_mult (e : PllEncoding) : (s.putPll e).mult = s.mult := rfl
@[simp] theorem State.putPll_div (e : PllEncoding) : (s.putPll e).div = s.div := rfl
@[simp] theorem State.putPll_freq (e : PllEncoding) : (s.putPll e).freq = s.freq := rfl
@[simp] theorem State.putPll_ref (e : PllEncoding) : (s.putPll e).ref = s.ref := rfl
@[simp] theorem State.putPll_hmul (e : PllEncoding) : (s.putPll e).hmul = s.hmul := rfl
@[simp] theorem State.putPll_phase (e : PllEncoding) : (s.putPll e).phase = s.phase := rfl
@[simp] theorem State.putPll_cmdLatch (e : PllEncoding) : (s.putPll e).cmdLatch = s.cmdLatch := rfl
@[simp] theorem State.putPll_done (e : PllEncoding) : (s.putPll e).done = s.done := rfl
@[simp] theorem State.putPll_fault (e : PllEncoding) : (s.putPll e).fault = s.fault := rfl
@[simp] theorem State.putPll_cause (e : PllEncoding) : (s.putPll e).cause = s.cause := rfl
@[simp] theorem State.putPll_flags (e : PllEncoding) : (s.putPll e).flags = s.flags := rfl
@[simp] theorem State.putPll_pp1 (e : PllEncoding) : (s.putPll e).pp1 = e.fields.p1 := rfl
@[simp] theorem State.putPll_pp2 (e : PllEncoding) : (s.putPll e).pp2 = e.fields.p2 := rfl
@[simp] theorem State.putPll_pp3 (e : PllEncoding) : (s.putPll e).pp3 = e.fields.p3 := rfl
@[simp] theorem State.putPll_mp1 (e : PllEncoding) : (s.putPll e).mp1 = s.mp1 := rfl
@[simp] theorem State.putPll_mp2 (e : PllEncoding) : (s.putPll e).mp2 = s.mp2 := rfl
@[simp] theorem State.putPll_mp3 (e : PllEncoding) : (s.putPll e).mp3 = s.mp3 := rfl
@[simp] theorem State.putPll_pllTx (e : PllEncoding) : (s.putPll e).pllTx = e.tx := rfl
@[simp] theorem State.putPll_msTx (e : PllEncoding) : (s.putPll e).msTx = s.msTx := rfl
@[simp] theorem State.putPll_ccTx (e : PllEncoding) : (s.putPll e).ccTx = s.ccTx := rfl
@[simp] theorem State.putPll_chip (e : PllEncoding) : (s.putPll e).chip = s.chip := rfl
@[simp] theorem State.putPll_txStream (e : PllEncoding) : (s.putPll e).txStream = s.txStream := rfl
@[simp] theorem State.putPll_reads (e : PllEncoding) : (s.putPll e).reads = s.reads := rfl
@[simp] theorem State.putPll_draws (e : PllEncoding) : (s.putPll e).draws = s.draws := rfl
@[simp] theorem State.putPll_events (e : PllEncoding) : (s.putPll e).events = s.events := rfl

@[simp] theorem State.putMs_num (e : MsEncoding) : (s.putMs e).num = s.num := rfl
@[simp] theorem State.putMs_den (e : MsEncoding) : (s.putMs e).den = s.den := rfl
@[simp] theorem State.putMs_maxden (e : MsEncoding) : (s.putMs e).maxden = s.maxden := rfl
@[simp] theorem State.putMs_mult (e : MsEncoding) : (s.putMs e).mult = s.mult := rfl
@[simp] theorem State.putMs_div (e : MsEncoding) : (s.putMs e).div = s.div := rfl
@[simp] theorem State.putMs_freq (e : MsEncoding) : (s.putMs e).freq = s.freq := rfl
@[simp] theorem State.putMs_ref (e : MsEncoding) : (s.putMs e).ref = s.ref := rfl
@[simp] theorem State.putMs_hmul (e : MsEncoding) : (s.putMs e).hmul = s.hmul := rfl
@[simp] theorem State.putMs_phase (e : MsEncoding) : (s.putMs e).phase = s.phase := rfl
@[simp] theorem State.putMs_cmdLatch (e : MsEncoding) : (s.putMs e).cmdLatch = s.cmdLatch := rfl
@[simp] theorem State.putMs_done (e : MsEncoding) : (s.putMs e).done = s.done := rfl
@[simp] theorem State.putMs_fault (e : MsEncoding) : (s.putMs e).fault = s.fault := rfl
@[simp] theorem State.putMs_cause (e : MsEncoding) : (s.putMs e).cause = s.cause := rfl
@[simp] theorem State.putMs_flags (e : MsEncoding) : (s.putMs e).flags = s.flags := rfl
@[simp] theorem State.putMs_pp1 (e : MsEncoding) : (s.putMs e).pp1 = s.pp1 := rfl
@[simp] theorem State.putMs_pp2 (e : MsEncoding) : (s.putMs e).pp2 = s.pp2 := rfl
@[simp] theorem State.putMs_pp3 (e : MsEncoding) : (s.putMs e).pp3 = s.pp3 := rfl
@[simp] theorem State.putMs_mp1 (e : MsEncoding) : (s.putMs e).mp1 = e.fields.p1 := rfl
@[simp] theorem State.putMs_mp2 (e : MsEncoding) : (s.putMs e).mp2 = e.fields.p2 := rfl
@[simp] theorem State.putMs_mp3 (e : MsEncoding) : (s.putMs e).mp3 = e.fields.p3 := rfl
@[simp] theorem State.putMs_pllTx (e : MsEncoding) : (s.putMs e).pllTx = s.pllTx := rfl
@[simp] theorem State.putMs_msTx (e : MsEncoding) : (s.putMs e).msTx = e.tx := rfl
@[simp] theorem State.putMs_ccTx (e : MsEncoding) : (s.putMs e).ccTx = e.cc := rfl
@[simp] theorem State.putMs_chip (e : MsEncoding) : (s.putMs e).chip = s.chip := rfl
@[simp] theorem State.putMs_txStream (e : MsEncoding) : (s.putMs e).txStream = s.txStream := rfl
@[simp] theorem State.putMs_reads (e : MsEncoding) : (s.putMs e).reads = s.reads := rfl
@[simp] theorem State.putMs_draws (e : MsEncoding) : (s.putMs e).draws = s.draws := rfl
@[simp] theorem State.putMs_events (e : MsEncoding) : (s.putMs e).events = s.events := rfl

@[simp] theorem State.putFrac_num (r : ApproxResult) : (s.putFrac r).num = BitVec.ofNat xlen r.num := rfl
@[simp] theorem State.putFrac_den (r : ApproxResult) : (s.putFrac r).den = BitVec.ofNat xlen r.den := rfl
@[simp] theorem State.putFrac_maxden (r : ApproxResult) : (s.putFrac r).maxden = s.maxden := rfl
@[simp] theorem State.putFrac_mult (r : ApproxResult) : (s.putFrac r).mult = s.mult := rfl
@[simp] theorem State.putFrac_div (r : ApproxResult) : (s.putFrac r).div = s.div := rfl
@[simp] theorem State.putFrac_freq (r : ApproxResult) : (s.putFrac r).freq = s.freq := rfl
@[simp] theorem State.putFrac_ref (r : ApproxResult) : (s.putFrac r).ref = s.ref := rfl
@[simp] theorem State.putFrac_hmul (r : ApproxResult) : (s.putFrac r).hmul = s.hmul := rfl
@[simp] theorem State.putFrac_phase (r : ApproxResult) : (s.putFrac r).phase = s.phase := rfl
@[simp] theorem State.putFrac_cmdLatch (r : ApproxResult) : (s.putFrac r).cmdLatch = s.cmdLatch := rfl
@[simp] theorem State.putFrac_done (r : ApproxResult) : (s.putFrac r).done = s.done := rfl
@[simp] theorem State.putFrac_fault (r : ApproxResult) : (s.putFrac r).fault = s.fault := rfl
@[simp] theorem State.putFrac_cause (r : ApproxResult) : (s.putFrac r).cause = s.cause := rfl
@[simp] theorem State.putFrac_flags (r : ApproxResult) : (s.putFrac r).flags = s.flags := rfl
@[simp] theorem State.putFrac_pp1 (r : ApproxResult) : (s.putFrac r).pp1 = s.pp1 := rfl
@[simp] theorem State.putFrac_pp2 (r : ApproxResult) : (s.putFrac r).pp2 = s.pp2 := rfl
@[simp] theorem State.putFrac_pp3 (r : ApproxResult) : (s.putFrac r).pp3 = s.pp3 := rfl
@[simp] theorem State.putFrac_mp1 (r : ApproxResult) : (s.putFrac r).mp1 = s.mp1 := rfl
@[simp] theorem State.putFrac_mp2 (r : ApproxResult) : (s.putFrac r).mp2 = s.mp2 := rfl
@[simp] theorem State.putFrac_mp3 (r : ApproxResult) : (s.putFrac r).mp3 = s.mp3 := rfl
@[simp] theorem State.putFrac_pllTx (r : ApproxResult) : (s.putFrac r).pllTx = s.pllTx := rfl
@[simp] theorem State.putFrac_msTx (r : ApproxResult) : (s.putFrac r).msTx = s.msTx := rfl
@[simp] theorem State.putFrac_ccTx (r : ApproxResult) : (s.putFrac r).ccTx = s.ccTx := rfl
@[simp] theorem State.putFrac_chip (r : ApproxResult) : (s.putFrac r).chip = s.chip := rfl
@[simp] theorem State.putFrac_txStream (r : ApproxResult) : (s.putFrac r).txStream = s.txStream := rfl
@[simp] theorem State.putFrac_reads (r : ApproxResult) : (s.putFrac r).reads = s.reads := rfl
@[simp] theorem State.putFrac_draws (r : ApproxResult) : (s.putFrac r).draws = s.draws := rfl
@[simp] theorem State.putFrac_events (r : ApproxResult) : (s.putFrac r).events = s.events := rfl

@[simp] theorem State.issue_num (w : BitVec 32) : (s.issue w).num = s.num := rfl
@[simp] theorem State.issue_den (w : BitVec 32) : (s.issue w).den = s.den := rfl
@[simp] theorem State.issue_maxden (w : BitVec 32) : (s.issue w).maxden = s.maxden := rfl
@[simp] theorem State.issue_mult (w : BitVec 32) : (s.issue w).mult = s.mult := rfl
@[simp] theorem State.issue_div (w : BitVec 32) : (s.issue w).div = s.div := rfl
@[simp] theorem State.issue_freq (w : BitVec 32) : (s.issue w).freq = s.freq := rfl
@[simp] theorem State.issue_ref (w : BitVec 32) : (s.issue w).ref = s.ref := rfl
@[simp] theorem State.issue_hmul (w : BitVec 32) : (s.issue w).hmul = s.hmul := rfl
@[simp] theorem State.issue_phase (w : BitVec 32) : (s.issue w).phase = .run := rfl
@[simp] theorem State.issue_cmdLatch (w : BitVec 32) : (s.issue w).cmdLatch = w := rfl
@[simp] theorem State.issue_done (w : BitVec 32) : (s.issue w).done = false := rfl
@[simp] theorem State.issue_fault (w : BitVec 32) : (s.issue w).fault = s.fault := rfl
@[simp] theorem State.issue_cause (w : BitVec 32) : (s.issue w).cause = s.cause := rfl
@[simp] theorem State.issue_flags (w : BitVec 32) : (s.issue w).flags = s.flags := rfl
@[simp] theorem State.issue_pp1 (w : BitVec 32) : (s.issue w).pp1 = s.pp1 := rfl
@[simp] theorem State.issue_pp2 (w : BitVec 32) : (s.issue w).pp2 = s.pp2 := rfl
@[simp] theorem State.issue_pp3 (w : BitVec 32) : (s.issue w).pp3 = s.pp3 := rfl
@[simp] theorem State.issue_mp1 (w : BitVec 32) : (s.issue w).mp1 = s.mp1 := rfl
@[simp] theorem State.issue_mp2 (w : BitVec 32) : (s.issue w).mp2 = s.mp2 := rfl
@[simp] theorem State.issue_mp3 (w : BitVec 32) : (s.issue w).mp3 = s.mp3 := rfl
@[simp] theorem State.issue_pllTx (w : BitVec 32) : (s.issue w).pllTx = s.pllTx := rfl
@[simp] theorem State.issue_msTx (w : BitVec 32) : (s.issue w).msTx = s.msTx := rfl
@[simp] theorem State.issue_ccTx (w : BitVec 32) : (s.issue w).ccTx = s.ccTx := rfl
@[simp] theorem State.issue_chip (w : BitVec 32) : (s.issue w).chip = s.chip := rfl
@[simp] theorem State.issue_txStream (w : BitVec 32) : (s.issue w).txStream = s.txStream := rfl
@[simp] theorem State.issue_reads (w : BitVec 32) : (s.issue w).reads = s.reads := rfl
@[simp] theorem State.issue_draws (w : BitVec 32) : (s.issue w).draws = s.draws := rfl
@[simp] theorem State.issue_events (w : BitVec 32) : (s.issue w).events = s.events := rfl

@[simp] theorem State.withEvents_num (es : List (Event xlen)) : (s.withEvents es).num = s.num := rfl
@[simp] theorem State.withEvents_den (es : List (Event xlen)) : (s.withEvents es).den = s.den := rfl
@[simp] theorem State.withEvents_maxden (es : List (Event xlen)) : (s.withEvents es).maxden = s.maxden := rfl
@[simp] theorem State.withEvents_mult (es : List (Event xlen)) : (s.withEvents es).mult = s.mult := rfl
@[simp] theorem State.withEvents_div (es : List (Event xlen)) : (s.withEvents es).div = s.div := rfl
@[simp] theorem State.withEvents_freq (es : List (Event xlen)) : (s.withEvents es).freq = s.freq := rfl
@[simp] theorem State.withEvents_ref (es : List (Event xlen)) : (s.withEvents es).ref = s.ref := rfl
@[simp] theorem State.withEvents_hmul (es : List (Event xlen)) : (s.withEvents es).hmul = s.hmul := rfl
@[simp] theorem State.withEvents_phase (es : List (Event xlen)) : (s.withEvents es).phase = s.phase := rfl
@[simp] theorem State.withEvents_cmdLatch (es : List (Event xlen)) : (s.withEvents es).cmdLatch = s.cmdLatch := rfl
@[simp] theorem State.withEvents_done (es : List (Event xlen)) : (s.withEvents es).done = s.done := rfl
@[simp] theorem State.withEvents_fault (es : List (Event xlen)) : (s.withEvents es).fault = s.fault := rfl
@[simp] theorem State.withEvents_cause (es : List (Event xlen)) : (s.withEvents es).cause = s.cause := rfl
@[simp] theorem State.withEvents_flags (es : List (Event xlen)) : (s.withEvents es).flags = s.flags := rfl
@[simp] theorem State.withEvents_pp1 (es : List (Event xlen)) : (s.withEvents es).pp1 = s.pp1 := rfl
@[simp] theorem State.withEvents_pp2 (es : List (Event xlen)) : (s.withEvents es).pp2 = s.pp2 := rfl
@[simp] theorem State.withEvents_pp3 (es : List (Event xlen)) : (s.withEvents es).pp3 = s.pp3 := rfl
@[simp] theorem State.withEvents_mp1 (es : List (Event xlen)) : (s.withEvents es).mp1 = s.mp1 := rfl
@[simp] theorem State.withEvents_mp2 (es : List (Event xlen)) : (s.withEvents es).mp2 = s.mp2 := rfl
@[simp] theorem State.withEvents_mp3 (es : List (Event xlen)) : (s.withEvents es).mp3 = s.mp3 := rfl
@[simp] theorem State.withEvents_pllTx (es : List (Event xlen)) : (s.withEvents es).pllTx = s.pllTx := rfl
@[simp] theorem State.withEvents_msTx (es : List (Event xlen)) : (s.withEvents es).msTx = s.msTx := rfl
@[simp] theorem State.withEvents_ccTx (es : List (Event xlen)) : (s.withEvents es).ccTx = s.ccTx := rfl
@[simp] theorem State.withEvents_chip (es : List (Event xlen)) : (s.withEvents es).chip = s.chip := rfl
@[simp] theorem State.withEvents_txStream (es : List (Event xlen)) : (s.withEvents es).txStream = s.txStream := rfl
@[simp] theorem State.withEvents_reads (es : List (Event xlen)) : (s.withEvents es).reads = s.reads := rfl
@[simp] theorem State.withEvents_draws (es : List (Event xlen)) : (s.withEvents es).draws = s.draws := rfl
@[simp] theorem State.withEvents_events (es : List (Event xlen)) : (s.withEvents es).events = es := rfl

@[simp] theorem State.resetRade_num : s.resetRade.num = 0 := rfl
@[simp] theorem State.resetRade_den : s.resetRade.den = 0 := rfl
@[simp] theorem State.resetRade_maxden : s.resetRade.maxden = 1048575 := rfl
@[simp] theorem State.resetRade_mult : s.resetRade.mult = 0 := rfl
@[simp] theorem State.resetRade_div : s.resetRade.div = 0 := rfl
@[simp] theorem State.resetRade_freq : s.resetRade.freq = 0 := rfl
@[simp] theorem State.resetRade_ref : s.resetRade.ref = 0 := rfl
@[simp] theorem State.resetRade_hmul : s.resetRade.hmul = 0 := rfl
@[simp] theorem State.resetRade_phase : s.resetRade.phase = .idle := rfl
@[simp] theorem State.resetRade_cmdLatch : s.resetRade.cmdLatch = 0 := rfl
@[simp] theorem State.resetRade_done : s.resetRade.done = false := rfl
@[simp] theorem State.resetRade_fault : s.resetRade.fault = false := rfl
@[simp] theorem State.resetRade_cause : s.resetRade.cause = 0 := rfl
@[simp] theorem State.resetRade_flags : s.resetRade.flags = ResultFlags.clear := rfl
@[simp] theorem State.resetRade_pp1 : s.resetRade.pp1 = 0 := rfl
@[simp] theorem State.resetRade_pp2 : s.resetRade.pp2 = 0 := rfl
@[simp] theorem State.resetRade_pp3 : s.resetRade.pp3 = 0 := rfl
@[simp] theorem State.resetRade_mp1 : s.resetRade.mp1 = 0 := rfl
@[simp] theorem State.resetRade_mp2 : s.resetRade.mp2 = 0 := rfl
@[simp] theorem State.resetRade_mp3 : s.resetRade.mp3 = 0 := rfl
@[simp] theorem State.resetRade_pllTx : s.resetRade.pllTx = #v[0, 0, 0, 0, 0, 0, 0, 0, 0] := rfl
@[simp] theorem State.resetRade_msTx : s.resetRade.msTx = #v[0, 0, 0, 0, 0, 0, 0, 0, 0] := rfl
@[simp] theorem State.resetRade_ccTx : s.resetRade.ccTx = #v[0, 0] := rfl
@[simp] theorem State.resetRade_chip : s.resetRade.chip = s.chip := rfl
@[simp] theorem State.resetRade_txStream : s.resetRade.txStream = s.txStream := rfl
@[simp] theorem State.resetRade_reads : s.resetRade.reads = s.reads := rfl
@[simp] theorem State.resetRade_draws : s.resetRade.draws = s.draws := rfl
@[simp] theorem State.resetRade_events : s.resetRade.events = s.events := rfl

/-! At the default XLEN the reset state is the one the resets give. -/

theorem State.reset_eq_initial : State.reset = State.initial := rfl

@[simp] theorem State.getG_num : s.getG .num = s.num := rfl
@[simp] theorem State.getG_den : s.getG .den = s.den := rfl
@[simp] theorem State.getG_maxden : s.getG .maxden = s.maxden := rfl
@[simp] theorem State.getG_mult : s.getG .mult = s.mult := rfl
@[simp] theorem State.getG_div : s.getG .div = s.div := rfl
@[simp] theorem State.getG_freq : s.getG .freq = s.freq := rfl
@[simp] theorem State.getG_ref : s.getG .ref = s.ref := rfl
@[simp] theorem State.getG_hmul : s.getG .hmul = s.hmul := rfl
@[simp] theorem State.setG_num (v : Word xlen) : s.setG .num v = { s with num := v } := rfl
@[simp] theorem State.setG_den (v : Word xlen) : s.setG .den v = { s with den := v } := rfl
@[simp] theorem State.setG_maxden (v : Word xlen) : s.setG .maxden v = { s with maxden := v } := rfl
@[simp] theorem State.setG_mult (v : Word xlen) : s.setG .mult v = { s with mult := v } := rfl
@[simp] theorem State.setG_div (v : Word xlen) : s.setG .div v = { s with div := v } := rfl
@[simp] theorem State.setG_freq (v : Word xlen) : s.setG .freq v = { s with freq := v } := rfl
@[simp] theorem State.setG_ref (v : Word xlen) : s.setG .ref v = { s with ref := v } := rfl
@[simp] theorem State.setG_hmul (v : Word xlen) : s.setG .hmul v = { s with hmul := v } := rfl

/-- A general register reads back the value written to it (10_state R20: none aliases another). -/
@[simp] theorem State.getG_setG_same (r : GReg) (v : Word xlen) : (s.setG r v).getG r = v := by
  cases r <;> rfl

/-- A write to one general register leaves the others alone (10_state R20). -/
theorem State.getG_setG_ne {r r' : GReg} (h : r' ≠ r) (v : Word xlen) : (s.setG r v).getG r' = s.getG r' := by
  cases r <;> cases r' <;> first | rfl | exact absurd rfl h

/-- A write to a general register changes nothing but general registers. -/
theorem State.setG_frame (r : GReg) (v : Word xlen) :
    { s.setG r v with
      num := s.num, den := s.den, maxden := s.maxden, mult := s.mult
      div := s.div, freq := s.freq, ref := s.ref, hmul := s.hmul } = s := by
  cases r <;> rfl

end Sys2Proof.Machine
end

