-- ==== Sys2Proof/Laws/Ops.lean ====
section
/-! SUPPORT. What a command's completion can do, said once per command. -/

namespace Sys2Proof.Machine

@[simp] theorem State.finish_ok (s t : State) : s.finish (.ok t) = .next t.complete := rfl
@[simp] theorem State.finish_error (s : State) (c : Cause) : s.finish (.error c) = .next (s.raise c) := rfl
@[simp] theorem State.illegalCommand_eq (s : State) : s.illegalCommand = .next (s.raise .illcmd) := rfl

/-- A completion either commits and completes, or takes the fault record (10_state R25(b)). -/
theorem State.finish_next {s t : State} {r : Except Cause State} (h : s.finish r = .next t) :
    (∃ u, r = .ok u ∧ t = u.complete) ∨ (∃ c, r = .error c ∧ t = s.raise c) := by
  cases r with
  | ok u => exact .inl ⟨u, rfl, by simpa using h.symm⟩
  | error c => exact .inr ⟨c, rfl, by simpa using h.symm⟩

@[simp] theorem exec_nop_eq (s : State) : exec .nop s = .next s.complete := rfl
@[simp] theorem exec_clrf_eq (s : State) : exec .clrf s = .next s.clearFault := rfl
@[simp] theorem exec_reset_eq (s : State) : exec .reset s = .next s.resetRade := rfl
@[simp] theorem exec_reserved8_eq (s : State) : exec .reserved8 s = .next (s.raise .illcmd) := rfl
@[simp] theorem exec_reserved9_eq (s : State) : exec .reserved9 s = .next (s.raise .illcmd) := rfl
@[simp] theorem exec_reservedA_eq (s : State) : exec .reservedA s = .next (s.raise .illcmd) := rfl
@[simp] theorem exec_reservedB_eq (s : State) : exec .reservedB s = .next (s.raise .illcmd) := rfl
@[simp] theorem exec_reservedC_eq (s : State) : exec .reservedC s = .next (s.raise .illcmd) := rfl
@[simp] theorem exec_reservedD_eq (s : State) : exec .reservedD s = .next (s.raise .illcmd) := rfl

/-- What APPROX can do (40_approx R104). -/
theorem exec_approx_cases (s : State) :
    (∃ c, approx s.num.toNat s.den.toNat s.maxden.toNat = .error c ∧ exec .approx s = .next (s.raise c)) ∨
    (∃ r, approx s.num.toNat s.den.toNat s.maxden.toNat = .ok r ∧
      exec .approx s = .next ((s.putFrac r).setFlags (approxFlags r)).complete) := by
  cases h : approx s.num.toNat s.den.toNat s.maxden.toNat with
  | error c => exact .inl ⟨c, rfl, by simp [exec, execApprox, h]⟩
  | ok r => exact .inr ⟨r, rfl, by simp [exec, execApprox, h]⟩

/-- What PLLENC can do (41_pllenc R125). -/
theorem exec_pllenc_cases (pll : PllSel) (s : State) :
    (∃ c, encodePll s.chip pll s.mult.toNat s.num.toNat s.den.toNat = .error c ∧
      exec (.pllenc pll) s = .next (s.raise c)) ∨
    (∃ e, encodePll s.chip pll s.mult.toNat s.num.toNat s.den.toNat = .ok e ∧
      exec (.pllenc pll) s =
        .next (((s.putPll e).setFlags (pllencFlags s.num.toNat e.fields)).emit e.tx.toList).complete) := by
  cases h : encodePll s.chip pll s.mult.toNat s.num.toNat s.den.toNat with
  | error c => exact .inl ⟨c, rfl, by simp [exec, execPllenc, h]⟩
  | ok e => exact .inr ⟨e, rfl, by simp [exec, execPllenc, h]⟩

/-- What MSENC can do (42_msenc R136). -/
theorem exec_msenc_cases (pll : PllSel) (ch : BitVec 2) (rdiv : BitVec 3) (drv : BitVec 2) (s : State) :
    (channelOf ch = none ∧ exec (.msenc pll ch rdiv drv) s = .next (s.raise .illcmd)) ∨
    (∃ c f, channelOf ch = some c ∧
      encodeMs s.chip pll c rdiv drv s.div.toNat s.num.toNat s.den.toNat = .error f ∧
      exec (.msenc pll ch rdiv drv) s = .next (s.raise f)) ∨
    (∃ c e, channelOf ch = some c ∧
      encodeMs s.chip pll c rdiv drv s.div.toNat s.num.toNat s.den.toNat = .ok e ∧
      exec (.msenc pll ch rdiv drv) s =
        .next ((((s.putMs e).setFlags (msencFlags s.div.toNat s.num.toNat e.fields)).emit e.tx.toList).emit
          e.cc.toList).complete) := by
  cases hc : channelOf ch with
  | none => exact .inl ⟨rfl, by simp [exec, execMsenc, hc]⟩
  | some c =>
    cases h : encodeMs s.chip pll c rdiv drv s.div.toNat s.num.toNat s.den.toNat with
    | error f => exact .inr (.inl ⟨c, f, rfl, h, by simp [exec, execMsenc, hc, h]⟩)
    | ok e => exact .inr (.inr ⟨c, e, rfl, h, by simp [exec, execMsenc, hc, h]⟩)

/-- What RATFP can do (43_ratio R156). -/
theorem exec_ratfp_cases (s : State) :
    (∃ c, s.fixedPllRatio = .error c ∧ exec .ratfp s = .next (s.raise c)) ∨
    (∃ r, s.fixedPllRatio = .ok r ∧ exec .ratfp s =
      .next (((s.setG .div (BitVec.ofNat 32 r.quot)).putFrac r.frac).setFlags (approxFlags r.frac)).complete) := by
  cases h : s.fixedPllRatio with
  | error c => exact .inl ⟨c, rfl, by simp [exec, execRatfp, h]⟩
  | ok r => exact .inr ⟨r, rfl, by simp [exec, execRatfp, h]⟩

/-- What RATFD can do (43_ratio R159). -/
theorem exec_ratfd_cases (s : State) :
    (∃ c, s.fixedDivRatio = .error c ∧ exec .ratfd s = .next (s.raise c)) ∨
    (∃ r, s.fixedDivRatio = .ok r ∧ exec .ratfd s =
      .next (((s.setG .mult (BitVec.ofNat 32 r.quot)).putFrac r.frac).setFlags (approxFlags r.frac)).complete) := by
  cases h : s.fixedDivRatio with
  | error c => exact .inl ⟨c, rfl, by simp [exec, execRatfd, h]⟩
  | ok r => exact .inr ⟨r, rfl, by simp [exec, execRatfd, h]⟩

/-- What SETFP can do (43_ratio R163): ILLCMD, a fault of its ratio stage or of its encoder, or the commit. -/
theorem exec_setfp_cases (pll : PllSel) (ch : BitVec 2) (rdiv : BitVec 3) (drv : BitVec 2) (s : State) :
    (channelOf ch = none ∧ exec (.setfp pll ch rdiv drv) s = .next (s.raise .illcmd)) ∨
    (∃ c f, channelOf ch = some c ∧ s.fixedPllRatio = .error f ∧
      exec (.setfp pll ch rdiv drv) s = .next (s.raise f)) ∨
    (∃ c r f, channelOf ch = some c ∧ s.fixedPllRatio = .ok r ∧
      encodeMs s.chip pll c rdiv drv r.quot r.frac.num r.frac.den = .error f ∧
      exec (.setfp pll ch rdiv drv) s = .next (s.raise f)) ∨
    (∃ c r e, channelOf ch = some c ∧ s.fixedPllRatio = .ok r ∧
      encodeMs s.chip pll c rdiv drv r.quot r.frac.num r.frac.den = .ok e ∧
      exec (.setfp pll ch rdiv drv) s =
        .next ((((((s.setG .div (BitVec.ofNat 32 r.quot)).putFrac r.frac).putMs e).setFlags
          (setfpFlags r e.fields)).emit e.tx.toList).emit e.cc.toList).complete) := by
  cases hc : channelOf ch with
  | none => exact .inl ⟨rfl, by simp [exec, execSetfp, hc]⟩
  | some c =>
    cases hr : s.fixedPllRatio with
    | error f => exact .inr (.inl ⟨c, f, rfl, rfl, by simp [exec, execSetfp, hc, hr]⟩)
    | ok r =>
      cases he : encodeMs s.chip pll c rdiv drv r.quot r.frac.num r.frac.den with
      | error f => exact .inr (.inr (.inl ⟨c, r, f, rfl, rfl, he, by simp [exec, execSetfp, hc, hr, he]⟩))
      | ok e => exact .inr (.inr (.inr ⟨c, r, e, rfl, rfl, he, by simp [exec, execSetfp, hc, hr, he]⟩))

/-- What SETFD can do (43_ratio R165): ILLCMD, a fault of its ratio stage or of an encoder, or the commit. -/
theorem exec_setfd_cases (pll : PllSel) (ch : BitVec 2) (rdiv : BitVec 3) (drv : BitVec 2) (s : State) :
    (channelOf ch = none ∧ exec (.setfd pll ch rdiv drv) s = .next (s.raise .illcmd)) ∨
    (∃ c f, channelOf ch = some c ∧ s.fixedDivRatio = .error f ∧
      exec (.setfd pll ch rdiv drv) s = .next (s.raise f)) ∨
    (∃ c r f, channelOf ch = some c ∧ s.fixedDivRatio = .ok r ∧
      encodePll s.chip pll r.quot r.frac.num r.frac.den = .error f ∧
      exec (.setfd pll ch rdiv drv) s = .next (s.raise f)) ∨
    (∃ c r ep em, channelOf ch = some c ∧ s.fixedDivRatio = .ok r ∧
      encodePll s.chip pll r.quot r.frac.num r.frac.den = .ok ep ∧
      encodeMs s.chip pll c rdiv drv s.div.toNat 0 1 = .ok em ∧
      exec (.setfd pll ch rdiv drv) s =
        .next ((((((((s.setG .mult (BitVec.ofNat 32 r.quot)).putFrac r.frac).putPll ep).putMs em).setFlags
          (setfdFlags r s.div.toNat ep.fields em.fields)).emit ep.tx.toList).emit em.tx.toList).emit
          em.cc.toList).complete) := by
  cases hc : channelOf ch with
  | none => exact .inl ⟨rfl, by simp [exec, execSetfd, hc]⟩
  | some c =>
    cases hr : s.fixedDivRatio with
    | error f => exact .inr (.inl ⟨c, f, rfl, rfl, by simp [exec, execSetfd, hc, hr]⟩)
    | ok r =>
      cases hp : encodePll s.chip pll r.quot r.frac.num r.frac.den with
      | error f => exact .inr (.inr (.inl ⟨c, r, f, rfl, rfl, hp, by simp [exec, execSetfd, hc, hr, hp]⟩))
      | ok ep =>
        cases hm : encodeMs s.chip pll c rdiv drv s.div.toNat 0 1 with
        | error f =>
          -- stage 3 is integer mode and cannot fault (43_ratio R165)
          cases hf : msFields s.div.toNat 0 1 with
          | error g => exact absurd rfl (msFields_error hf).2.2.1
          | ok raw =>
            rw [encodeMs_of_fields _ _ _ _ _ hf] at hm
            cases hm
        | ok em => exact .inr (.inr (.inr ⟨c, r, ep, em, rfl, rfl, hp, hm, by simp [exec, execSetfd, hc, hr, hp, hm]⟩))

/-- Everything the completion of a command can do, in one relation: `CommandEffect s i t` says that command i may take
state s to t. `exec_effect` says that it always takes s to such a t. -/
inductive CommandEffect (s : State) : Instr → State → Prop
  | raise (i : Instr) (c : Cause) (hi : i ≠ .clrf) (hr : i ≠ .reset) (hn : i ≠ .nop) :
      CommandEffect s i (s.raise c)
  | nop : CommandEffect s .nop s.complete
  | clrf : CommandEffect s .clrf s.clearFault
  | reset : CommandEffect s .reset s.resetRade
  | approx (r : ApproxResult) (h : approx s.num.toNat s.den.toNat s.maxden.toNat = .ok r) :
      CommandEffect s .approx ((s.putFrac r).setFlags (approxFlags r)).complete
  | pllenc (pll : PllSel) (e : PllEncoding)
      (h : encodePll s.chip pll s.mult.toNat s.num.toNat s.den.toNat = .ok e) :
      CommandEffect s (.pllenc pll)
        (((s.putPll e).setFlags (pllencFlags s.num.toNat e.fields)).emit e.tx.toList).complete
  | msenc (pll : PllSel) (ch : BitVec 2) (rdiv : BitVec 3) (drv : BitVec 2) (c : Channel) (e : MsEncoding)
      (hc : channelOf ch = some c)
      (h : encodeMs s.chip pll c rdiv drv s.div.toNat s.num.toNat s.den.toNat = .ok e) :
      CommandEffect s (.msenc pll ch rdiv drv)
        ((((s.putMs e).setFlags (msencFlags s.div.toNat s.num.toNat e.fields)).emit e.tx.toList).emit
          e.cc.toList).complete
  | ratfp (r : Ratio) (h : s.fixedPllRatio = .ok r) :
      CommandEffect s .ratfp
        (((s.setG .div (BitVec.ofNat 32 r.quot)).putFrac r.frac).setFlags (approxFlags r.frac)).complete
  | ratfd (r : Ratio) (h : s.fixedDivRatio = .ok r) :
      CommandEffect s .ratfd
        (((s.setG .mult (BitVec.ofNat 32 r.quot)).putFrac r.frac).setFlags (approxFlags r.frac)).complete
  | setfp (pll : PllSel) (ch : BitVec 2) (rdiv : BitVec 3) (drv : BitVec 2) (c : Channel) (r : Ratio)
      (e : MsEncoding) (hc : channelOf ch = some c) (hr : s.fixedPllRatio = .ok r)
      (h : encodeMs s.chip pll c rdiv drv r.quot r.frac.num r.frac.den = .ok e) :
      CommandEffect s (.setfp pll ch rdiv drv)
        ((((((s.setG .div (BitVec.ofNat 32 r.quot)).putFrac r.frac).putMs e).setFlags
          (setfpFlags r e.fields)).emit e.tx.toList).emit e.cc.toList).complete
  | setfd (pll : PllSel) (ch : BitVec 2) (rdiv : BitVec 3) (drv : BitVec 2) (c : Channel) (r : Ratio)
      (ep : PllEncoding) (em : MsEncoding) (hc : channelOf ch = some c) (hr : s.fixedDivRatio = .ok r)
      (hp : encodePll s.chip pll r.quot r.frac.num r.frac.den = .ok ep)
      (hm : encodeMs s.chip pll c rdiv drv s.div.toNat 0 1 = .ok em) :
      CommandEffect s (.setfd pll ch rdiv drv)
        ((((((((s.setG .mult (BitVec.ofNat 32 r.quot)).putFrac r.frac).putPll ep).putMs em).setFlags
          (setfdFlags r s.div.toNat ep.fields em.fields)).emit ep.tx.toList).emit em.tx.toList).emit
          em.cc.toList).complete

/-- Every command answers a next state, by its effect (10_state R25(b)). -/
theorem exec_effect (i : Instr) (s : State) : ∃ t, exec i s = .next t ∧ CommandEffect s i t := by
  cases i with
  | nop => exact ⟨_, rfl, .nop⟩
  | clrf => exact ⟨_, rfl, .clrf⟩
  | reset => exact ⟨_, rfl, .reset⟩
  | reserved8 => exact ⟨_, rfl, .raise _ _ (by simp) (by simp) (by simp)⟩
  | reserved9 => exact ⟨_, rfl, .raise _ _ (by simp) (by simp) (by simp)⟩
  | reservedA => exact ⟨_, rfl, .raise _ _ (by simp) (by simp) (by simp)⟩
  | reservedB => exact ⟨_, rfl, .raise _ _ (by simp) (by simp) (by simp)⟩
  | reservedC => exact ⟨_, rfl, .raise _ _ (by simp) (by simp) (by simp)⟩
  | reservedD => exact ⟨_, rfl, .raise _ _ (by simp) (by simp) (by simp)⟩
  | approx =>
    rcases exec_approx_cases s with ⟨c, _, h⟩ | ⟨r, hr, h⟩
    · exact ⟨_, h, .raise _ _ (by simp) (by simp) (by simp)⟩
    · exact ⟨_, h, .approx r hr⟩
  | ratfp =>
    rcases exec_ratfp_cases s with ⟨c, _, h⟩ | ⟨r, hr, h⟩
    · exact ⟨_, h, .raise _ _ (by simp) (by simp) (by simp)⟩
    · exact ⟨_, h, .ratfp r hr⟩
  | ratfd =>
    rcases exec_ratfd_cases s with ⟨c, _, h⟩ | ⟨r, hr, h⟩
    · exact ⟨_, h, .raise _ _ (by simp) (by simp) (by simp)⟩
    · exact ⟨_, h, .ratfd r hr⟩
  | pllenc pll =>
    rcases exec_pllenc_cases pll s with ⟨c, _, h⟩ | ⟨e, he, h⟩
    · exact ⟨_, h, .raise _ _ (by simp) (by simp) (by simp)⟩
    · exact ⟨_, h, .pllenc _ e he⟩
  | msenc pll ch rdiv drv =>
    rcases exec_msenc_cases pll ch rdiv drv s with ⟨_, h⟩ | ⟨_, _, _, _, h⟩ | ⟨c, e, hc, he, h⟩
    · exact ⟨_, h, .raise _ _ (by simp) (by simp) (by simp)⟩
    · exact ⟨_, h, .raise _ _ (by simp) (by simp) (by simp)⟩
    · exact ⟨_, h, .msenc _ _ _ _ _ _ hc he⟩
  | setfp pll ch rdiv drv =>
    rcases exec_setfp_cases pll ch rdiv drv s with ⟨_, h⟩ | ⟨_, _, _, _, h⟩ | ⟨_, _, _, _, _, _, h⟩ |
      ⟨c, r, e, hc, hr, he, h⟩
    · exact ⟨_, h, .raise _ _ (by simp) (by simp) (by simp)⟩
    · exact ⟨_, h, .raise _ _ (by simp) (by simp) (by simp)⟩
    · exact ⟨_, h, .raise _ _ (by simp) (by simp) (by simp)⟩
    · exact ⟨_, h, .setfp _ _ _ _ _ _ _ hc hr he⟩
  | setfd pll ch rdiv drv =>
    rcases exec_setfd_cases pll ch rdiv drv s with ⟨_, h⟩ | ⟨_, _, _, _, h⟩ | ⟨_, _, _, _, _, _, h⟩ |
      ⟨c, r, ep, em, hc, hr, hp, hm, h⟩
    · exact ⟨_, h, .raise _ _ (by simp) (by simp) (by simp)⟩
    · exact ⟨_, h, .raise _ _ (by simp) (by simp) (by simp)⟩
    · exact ⟨_, h, .raise _ _ (by simp) (by simp) (by simp)⟩
    · exact ⟨_, h, .setfd _ _ _ _ _ _ _ _ hc hr hp hm⟩

/-- The effect behind a command's next state. -/
theorem effect_of_exec {i : Instr} {s t : State} (h : exec i s = .next t) : CommandEffect s i t := by
  obtain ⟨u, hu, e⟩ := exec_effect i s
  rw [h] at hu
  cases hu
  exact e

end Sys2Proof.Machine
end

