-- ==== Sys2Proof/Laws/PerInstr.lean ====
section
/-! SUPPORT. Statements for all commands, made one command at a time. -/

namespace Sys2Proof.Laws.EncodeShape

/-- The opcode of a command (30_encoding R83). -/
def opcode : Instr → BitVec 4
  | .nop => 0x0
  | .approx => 0x1
  | .pllenc _ => 0x2
  | .msenc _ _ _ _ => 0x3
  | .ratfp => 0x4
  | .ratfd => 0x5
  | .setfp _ _ _ _ => 0x6
  | .setfd _ _ _ _ => 0x7
  | .reserved8 => 0x8
  | .reserved9 => 0x9
  | .reservedA => 0xA
  | .reservedB => 0xB
  | .reservedC => 0xC
  | .reservedD => 0xD
  | .clrf => 0xE
  | .reset => 0xF

/-- The encoded word carries the command's opcode in bits 3:0 and 0 in its reserved bits 31:12 (30_encoding R80, R83). -/
def Statement (i : Instr) : Prop := opField (encode i) = opcode i ∧ reservedField (encode i) = 0

/-- A word of format C carries its opcode, and its reserved bits are 0 (30_encoding R80). -/
theorem formatC_shape (op : BitVec 4) (pll : BitVec 1) (ch : BitVec 2) (rdiv : BitVec 3) (drv : BitVec 2) :
    opField (formatC op pll ch rdiv drv) = op ∧ reservedField (formatC op pll ch rdiv drv) = 0 := by
  have := op.isLt
  have := pll.isLt
  have := ch.isLt
  have := rdiv.isLt
  have := drv.isLt
  constructor <;> apply BitVec.eq_of_toNat_eq
  · rw [opField_toNat, formatC_toNat]
    omega
  · rw [reservedField_toNat, formatC_toNat]
    simp
    omega

theorem nop : Statement .nop := formatC_shape ..
theorem approx : Statement .approx := formatC_shape ..
theorem pllenc (pll : PllSel) : Statement (.pllenc pll) := formatC_shape ..
theorem msenc (pll : PllSel) (ch : BitVec 2) (rdiv : BitVec 3) (drv : BitVec 2) :
    Statement (.msenc pll ch rdiv drv) := formatC_shape ..
theorem ratfp : Statement .ratfp := formatC_shape ..
theorem ratfd : Statement .ratfd := formatC_shape ..
theorem setfp (pll : PllSel) (ch : BitVec 2) (rdiv : BitVec 3) (drv : BitVec 2) :
    Statement (.setfp pll ch rdiv drv) := formatC_shape ..
theorem setfd (pll : PllSel) (ch : BitVec 2) (rdiv : BitVec 3) (drv : BitVec 2) :
    Statement (.setfd pll ch rdiv drv) := formatC_shape ..
theorem reserved8 : Statement .reserved8 := formatC_shape ..
theorem reserved9 : Statement .reserved9 := formatC_shape ..
theorem reservedA : Statement .reservedA := formatC_shape ..
theorem reservedB : Statement .reservedB := formatC_shape ..
theorem reservedC : Statement .reservedC := formatC_shape ..
theorem reservedD : Statement .reservedD := formatC_shape ..
theorem clrf : Statement .clrf := formatC_shape ..
theorem reset : Statement .reset := formatC_shape ..

end Sys2Proof.Laws.EncodeShape
end

