-- ==== Sys2Proof/Laws/Step.lean ====
section
/-! SUPPORT. What the host's accesses and a step can do, said once. -/

namespace Sys2Proof.Machine

/-- What a write to CMD can do (30_encoding R82): reset, nothing, or an issue, and when. -/
theorem State.writeCmd_cases (s : State) (w : BitVec 32) :
    (opField w = 0xF ∧ s.writeCmd w = s.resetRade) ∨
    (opField w ≠ 0xF ∧ (s.phase = .run ∨ (s.fault = true ∧ opField w ≠ 0xE)) ∧ s.writeCmd w = s) ∨
    (opField w ≠ 0xF ∧ s.phase = .idle ∧ (s.fault = true → opField w = 0xE) ∧ s.writeCmd w = s.issue w) := by
  unfold State.writeCmd
  split
  · exact .inl ⟨‹_›, rfl⟩
  · split
    · exact .inr (.inl ⟨‹_›, .inl ‹_›, rfl⟩)
    · split
      · exact .inr (.inl ⟨‹_›, .inr ‹_›, rfl⟩)
      · rename_i hp hf
        refine .inr (.inr ⟨‹_›, ?_, ?_, rfl⟩)
        · cases h : s.phase with
          | idle => rfl
          | run => exact absurd h hp
        · intro h
          exact Classical.byContradiction fun hne => hf ⟨h, hne⟩

/-- What a host write can do (20_memory R62): a command write, one general register, or nothing. -/
theorem State.hostWrite_cases (s : State) (i : RegIndex) (v : Word) :
    (i = 8 ∧ s.hostWrite i v = s.writeCmd v) ∨
    (i ≠ 8 ∧ s.phase = .idle ∧ ∃ r, gregAt i = some r ∧ s.hostWrite i v = s.setG r v) ∨
    (i ≠ 8 ∧ (s.phase = .run ∨ gregAt i = none) ∧ s.hostWrite i v = s) := by
  unfold State.hostWrite
  split
  · exact .inl ⟨‹_›, rfl⟩
  · cases hg : gregAt i with
    | none => exact .inr (.inr ⟨‹_›, .inr rfl, rfl⟩)
    | some r =>
      cases hp : s.phase with
      | idle => exact .inr (.inl ⟨‹_›, rfl, r, rfl, by simp⟩)
      | run => exact .inr (.inr ⟨‹_›, .inl rfl, by simp⟩)

/-- The index of a general register leads back to it (10_state R20). -/
@[simp] theorem gregAt_index (r : GReg) : gregAt r.index = some r := by cases r <;> rfl

/-- What the engine's turn can do (10_state R25(b)). -/
theorem engineTurn_cases (s : State) :
    (s.phase = .idle ∧ engineTurn s = .next s) ∨
    (s.phase = .run ∧ ∃ i, decode s.cmdLatch = .ok i ∧ engineTurn s = exec i s) ∨
    (s.phase = .run ∧ ∃ e, decode s.cmdLatch = .error e ∧ engineTurn s = .next (s.raise .illcmd)) := by
  unfold engineTurn engineTurnWith
  cases s.phase with
  | idle => exact .inl ⟨rfl, rfl⟩
  | run =>
    cases h : decode s.cmdLatch with
    | ok i => exact .inr (.inl ⟨rfl, i, rfl, by simp [State.latchedCommand, h]⟩)
    | error e => exact .inr (.inr ⟨rfl, e, rfl, by simp [State.latchedCommand, h]⟩)

/-- What a step can do: the engine's turn, or the next event of the schedule (20_memory R71). -/
theorem step_cases (s : State) :
    (s.events = [] ∧ step s = engineTurn s) ∨
    (∃ es, s.events = .engine :: es ∧ step s = engineTurn (s.withEvents es)) ∨
    (∃ i es, s.events = .hostRead i :: es ∧ step s = .next ((s.withEvents es).hostRead i)) ∨
    (∃ i v es, s.events = .hostWrite i v :: es ∧ step s = .next ((s.withEvents es).hostWrite i v)) ∨
    (∃ es, s.events = .resetInput :: es ∧ step s = .next (s.withEvents es).resetRade) := by
  unfold step stepWith
  rcases s.events with _ | ⟨e, es⟩
  · exact .inl ⟨rfl, rfl⟩
  · cases e with
    | hostRead i => exact .inr (.inr (.inl ⟨i, es, rfl, rfl⟩))
    | hostWrite i v => exact .inr (.inr (.inr (.inl ⟨i, v, es, rfl, rfl⟩)))
    | resetInput => exact .inr (.inr (.inr (.inr ⟨es, rfl, rfl⟩)))
    | engine => exact .inr (.inl ⟨es, rfl, rfl⟩)

/-- What holds between the states of a step: it is enough to show it for each thing a step can do, and that
removing an event from the schedule beforehand does not matter to it. -/
theorem step_relates {P : State → State → Prop} (refl : ∀ s, P s s)
    (events : ∀ s t es, P (s.withEvents es) t → P s t)
    (read : ∀ s i, P s (s.hostRead i))
    (write : ∀ s r v, s.phase = .idle → P s (s.setG r v))
    (issue : ∀ s w, s.phase = .idle → (s.fault = true → opField w = 0xE) → opField w ≠ 0xF → P s (s.issue w))
    (reset : ∀ s, P s s.resetRade)
    (illegal : ∀ s e, s.phase = .run → decode s.cmdLatch = .error e → P s (s.raise .illcmd))
    (command : ∀ s i t, s.phase = .run → decode s.cmdLatch = .ok i → CommandEffect s i t → P s t) :
    ∀ s t, step s = .next t → P s t := by
  have engine : ∀ s t, engineTurn s = .next t → P s t := by
    intro s t h
    rcases engineTurn_cases s with ⟨_, e⟩ | ⟨hp, i, hi, e⟩ | ⟨hp, x, hx, e⟩ <;> rw [e] at h
    · cases h; exact refl _
    · exact command _ _ _ hp hi (effect_of_exec h)
    · cases h; exact illegal _ x hp hx
  intro s t h
  rcases step_cases s with ⟨_, hs⟩ | ⟨es, _, hs⟩ | ⟨i, es, _, hs⟩ | ⟨i, v, es, _, hs⟩ | ⟨es, _, hs⟩ <;> rw [hs] at h
  · exact engine _ _ h
  · exact events _ _ es (engine _ _ h)
  · cases h; exact events _ _ es (read _ _)
  · cases h
    apply events _ _ es
    rcases State.hostWrite_cases (s.withEvents es) i v with ⟨_, e⟩ | ⟨_, hp, r, _, e⟩ | ⟨_, _, e⟩ <;> rw [e]
    · rcases State.writeCmd_cases (s.withEvents es) v with ⟨_, e'⟩ | ⟨_, _, e'⟩ | ⟨h1, h2, h3, e'⟩ <;> rw [e']
      · exact reset _
      · exact refl _
      · exact issue _ _ h2 h3 h1
    · exact write _ _ _ hp
    · exact refl _
  · cases h; exact events _ _ es (reset _)

/-- One step of a run, for any machine behind the host's interface; at `Sys2Proof.core` it is about `step`. -/
theorem run_succ_of_next {M : Host.Core} {n : Nat} {s t : M.State} (h : M.step s = .next t) :
    M.run (n + 1) s = M.run n t := by
  simp only [Host.Core.run, h]

end Sys2Proof.Machine
end

