-- ==== Sys2Proof/Tests/Slice0.lean ====
section
/-! SUPPORT. Small tests, each on one word or one step, with expected values from spec/ (95_test_vectors, V and E
numbers), and for every obligation with hypotheses a state and operands that meet them. -/

open Sys2Proof Sys2Proof.Machine Sys2Proof.Claims

namespace Sys2Proof.Tests

/-- What one step leaves, seen through f. -/
def see {α : Type} (o : Host.Outcome State Fault Refusal) (f : State → α) : Option α :=
  match o with
  | .next t => some (f t)
  | .fault _ => none
  | .refused _ => none

/-- What the decoder makes of a word. -/
def read (w : BitVec 32) : Option Instr := decodeTableWord 32 w.toNat

/-- s with the command word w running and the engine's turn next. -/
def running (s : State) (w : Nat) : State := s.withFetchWord 32 w

/-! WellFormed refuses CH = 3 (30_encoding R84(c)) and admits the rest. -/

theorem test_wf_msenc : (Instr.msenc .a 3 0 0).wellFormed = false := by decide
theorem test_wf_setfp : (Instr.setfp .a 3 6 0).wellFormed = false := by decide
theorem test_wf_setfd : (Instr.setfd .b 3 7 3).wellFormed = false := by decide
theorem test_wf_largest : (Instr.setfd .b 2 7 3).wellFormed = true := by decide

/-! Decoding: the word of every constructor, its bits DRV RDIV CH PLL OP written out from 30_encoding R80, R83. -/

theorem test_decode_nop : read 0b00_000_00_0_0000 = some .nop := by decide
theorem test_decode_approx : read 0b00_000_00_0_0001 = some .approx := by decide
theorem test_decode_pllenc : read 0b00_000_00_1_0010 = some (.pllenc .b) := by decide
theorem test_decode_msenc : read 0b01_110_10_0_0011 = some (.msenc .a 2 6 1) := by decide
theorem test_decode_ratfp : read 0b00_000_00_0_0100 = some .ratfp := by decide
theorem test_decode_ratfd : read 0b00_000_00_0_0101 = some .ratfd := by decide
theorem test_decode_setfp : read 0b10_011_01_0_0110 = some (.setfp .a 1 3 2) := by decide
theorem test_decode_setfd : read 0b11_111_10_1_0111 = some (.setfd .b 2 7 3) := by decide
theorem test_decode_reserved8 : read 0b1000 = some .reserved8 := by decide
theorem test_decode_reserved9 : read 0b1001 = some .reserved9 := by decide
theorem test_decode_reservedA : read 0b1010 = some .reservedA := by decide
theorem test_decode_reservedB : read 0b1011 = some .reservedB := by decide
theorem test_decode_reservedC : read 0b1100 = some .reservedC := by decide
theorem test_decode_reservedD : read 0b1101 = some .reservedD := by decide
theorem test_decode_clrf : read 0xFFFFFFFE = some .clrf := by decide
theorem test_decode_reset : read 0xABCDEF0F = some .reset := by decide
/-- V90, V91: a reserved bit set. -/
theorem test_decode_reserved_bits : read 0x80000000 = none ∧ read 0x00001002 = none := by decide
/-- V53, V80, V85: CH = 3. -/
theorem test_decode_channel3 : read 0x63 = none ∧ read 0x66 = none ∧ read 0x67 = none := by decide

/-- The command words of 95_test_vectors 2.7, from their statements. -/
theorem test_encode_words :
    [Instr.nop, .approx, .pllenc .a, .msenc .a 0 0 0, .ratfp, .ratfd, .setfp .a 0 0 0, .setfd .a 0 0 0, .clrf, .reset,
      .pllenc .b, .msenc .b 1 0 3, .msenc .a 2 6 1, .setfp .a 1 0 0, .setfd .b 1 0 2, .setfd .b 2 7 3].map encode =
    [0x0, 0x1, 0x2, 0x3, 0x4, 0x5, 0x6, 0x7, 0xE, 0xF, 0x12, 0xC33, 0x743, 0x26, 0x837, 0xFD7] := by decide

/-! One step per test. -/

/-- 44_control R181: STATUS 0x100 becomes 0x102. -/
theorem test_nop_keeps_flags :
    see (step (running { State.reset with flags := ⟨true, false, false, false, false⟩ } 0x0)) State.statusWord =
      some 0x102 := by decide

/-- V8: the loop runs for DEN = MAXDEN + 1 and stops on the bound. -/
theorem test_approx_bound :
    see (step (running { State.reset with num := 5, den := 1048576 } 0x1)) (fun t => (t.num, t.den, t.statusWord)) =
      some (1, 209715, 0x302) := by decide

/-- V15d: an improper ratio, bound 100. -/
theorem test_approx_improper :
    see (step (running { State.reset with num := 355, den := 113, maxden := 100 } 0x1))
      (fun t => (t.num, t.den, t.statusWord)) = some (22, 7, 0x302) := by decide

/-- V21: a fractional PLL encoding for instance B. -/
theorem test_pllenc_fraction :
    see (step (running { State.reset with mult := 30, num := 1, den := 3 } 0x12))
      (fun t => ([t.pp1.toNat, t.pp2.toNat, t.pp3.toNat, t.statusWord.toNat], t.txStream)) =
      some ([3370, 2, 3, 0x2], [[0x22, 0x00, 0x03, 0x00, 0x0D, 0x2A, 0x00, 0x00, 0x02]]) := by decide

/-- V27: MULT = 0 wraps P1 and sets TRUNC. -/
theorem test_pllenc_wraps :
    see (step (running { State.reset with den := 1 } 0x2)) (fun t => (t.pp1, t.statusWord, t.pllTx)) =
      some (261632, 0x1402, #v[0x1A, 0x00, 0x01, 0x03, 0xFE, 0x00, 0x00, 0x00, 0x00]) := by decide

/-- V43: P1 above 16 bits together with RDIV = 7 and DRV = 3. -/
theorem test_msenc_fraction :
    see (step (running { State.reset with div := 1800, num := 999999, den := 1048575 } 0xF83))
      (fun t => ([t.mp1.toNat, t.mp2.toNat, t.mp3.toNat, t.statusWord.toNat], t.txStream)) =
      some ([230010, 73722, 1048575, 0x2], [[0x2A, 0xFF, 0xFF, 0x73, 0x82, 0x7A, 0xF1, 0x1F, 0xFA], [0x10, 0x0F]]) := by
  decide

/-- V39: DIV = 4 hides the ratio, DEN = 0 included. -/
theorem test_msenc_divide_by_four :
    see (step (running { State.reset with div := 4, num := 7 } 0xC33)) (fun t => (t.statusWord, t.txStream)) =
      some (0x802, [[0x32, 0x00, 0x01, 0x0C, 0x00, 0x00, 0x00, 0x00, 0x00], [0x11, 0x2F]]) := by decide

/-- V55: a fixed-PLL ratio. -/
theorem test_ratfp :
    see (step (running { State.reset with ref := 832000000, hmul := 1, freq := 10000000 } 0x4))
      (fun t => (t.div, t.num, t.den, t.statusWord)) = some (83, 1, 5, 0x102) := by decide

/-- V61c: ZEROMAX is reported before OVERFLOW. -/
theorem test_ratfp_priority :
    see (step (running { State.reset with ref := 832000000, hmul := 6, freq := 1, maxden := 0 } 0x4))
      (fun t => (t.div, t.statusWord)) = some (0, 0x34) := by decide

/-- V62: a fixed-divider ratio; DIV is kept. -/
theorem test_ratfd :
    see (step (running { State.reset with freq := 120000000, div := 6, ref := 26000000, hmul := 1 } 0x5))
      (fun t => (t.mult, t.div, t.num, t.den, t.statusWord)) = some (27, 6, 9, 13, 0x102) := by decide

/-- V68: OVERFLOW. -/
theorem test_ratfd_overflow :
    see (step (running { State.reset with freq := 4000000000, div := 4, ref := 1, hmul := 1 } 0x5))
      (fun t => (t.mult, t.den, t.statusWord)) = some (0, 0, 0x54) := by decide

/-- V79: DIV = 2080 does not fit P1; RDIV is placed as given. -/
theorem test_setfp :
    see (step (running { State.reset with ref := 832000000, hmul := 1, freq := 400000 } 0x306))
      (fun t => ([t.div.toNat, t.den.toNat, t.mp1.toNat, t.statusWord.toNat], t.txStream)) =
      some ([2080, 400000, 3584, 0x1402], [[0x2A, 0x00, 0x01, 0x60, 0x0E, 0x00, 0x00, 0x00, 0x00], [0x10, 0x4C]]) := by
  decide

/-- V71: the three transactions of SETFD, in order, with the divide-by-4 output stage. -/
theorem test_setfd :
    see (step (running { State.reset with freq := 150000000, div := 4, ref := 26000000, hmul := 1 } 0xC37))
      (fun t => ([t.mult, t.num, t.den, t.statusWord], t.txStream)) =
      some ([23, 1, 13, 0xD02],
        [[0x22, 0x00, 0x0D, 0x00, 0x09, 0x89, 0x00, 0x00, 0x0B], [0x32, 0x00, 0x01, 0x0C, 0x00, 0x00, 0x00, 0x00, 0x00],
         [0x11, 0x6F]]) := by decide

/-- V74: both stages of SETFD truncate. -/
theorem test_setfd_truncates :
    see (step (running { State.reset with freq := 100, div := 3, ref := 26000000, hmul := 1 } 0x47))
      (fun t => (t.pp1, t.pp2, t.mp1, t.statusWord)) = some (261632, 384, 262016, 0x1502) := by decide

/-- 60_exceptions R226 at XLEN = 64: V60's quotient 4992000000 overflows 32 bits and fits 64. -/
theorem test_ratfp_xlen64 :
    (match execAt .ratfp { (State.initial : State 64) with ref := 832000000, hmul := 6, freq := 1 } with
      | .next t => some (t.div, t.statusWord)
      | .fault _ => none
      | .refused _ => none) = some (4992000000, 0x2) := by decide

/-- V89: each reserved opcode raises ILLCMD. -/
theorem test_reserved :
    [0x8, 0x9, 0xA, 0xB, 0xC, 0xD].map (fun w => see (step (running State.reset w)) State.statusWord) =
      List.replicate 6 (some 0x14) := by decide

/-- V93: CLRF with every other bit set, after a fault. -/
theorem test_clrf :
    see (step (running { State.reset with fault := true, cause := 4, mult := 24 } 0xFFFFFFFE))
      (fun t => (t.statusWord, t.mult)) = some (0, 24) := by decide

/-- V97, 44_control R183: RESET while BUSY, at the write; the stream is not recalled. -/
theorem test_reset :
    see (step { State.reset with phase := .run, cmdLatch := 1, num := 9, maxden := 7, txStream := [[0x10, 0x0C]],
                                 events := [.hostWrite 8 0xABCDEF0F] })
      (fun t => (t.phase, t.num, t.maxden, t.txStream)) = some (.idle, 0, 1048575, [[0x10, 0x0C]]) := by decide

/-- V98: read-only and reserved indices ignore a write. -/
theorem test_write_ignored :
    [9, 10, 22, 23, 31].map (fun i => see (step { State.reset with events := [.hostWrite i 5] }) id) =
      List.replicate 5 (some State.reset) := by decide

/-- P1: the words a host reads from the TX buffers after channel 2 of the 10 MHz scenario. -/
theorem test_tx_words :
    [16, 17, 18, 22].map (State.regWord { State.reset with
      pllTx := #v[0x1A, 0x00, 0x01, 0x00, 0x0E, 0x00, 0x00, 0x00, 0x00], ccTx := #v[0x12, 0x4C] }) =
      [0x0001001A, 0x0000000E, 0x00000000, 0x00004C12] := by decide

/-- V15: the approximation's worked trace. -/
theorem test_approx_trace :
    approxLoop 1048575 10 (convStart 12740734 26000000) = ⟨236936, 483515, true, true⟩ := by decide

/-- V95's two statements and a WAIT that polls once before the completion, as events (30_encoding R87). -/
theorem test_host_statements :
    ([.wr 3 25, .command (.pllenc .a), .wait 1] : List HostStmt).flatMap HostStmt.events =
      [.hostWrite 3 25, .hostWrite 8 2, .hostRead 9, .engine, .hostRead 9] := by decide

/-! For every obligation with hypotheses: what meets them, clause by clause. -/

theorem test_hyps_EncodedCommandDecodesBack : (Instr.msenc .b 2 7 3).WellFormed ∧ Instr.reserved8.WellFormed := by decide

theorem test_hyps_UnusedFieldsAreIgnored :
    let agree (w w' : BitVec 32) := w.toNat % 16 = w'.toNat % 16 ∧ w.toNat / 4096 = w'.toNat / 4096
    (agree 0xFE0 0x000 ∧ (0xFE0 : BitVec 32).toNat % 16 ∈ [0, 1, 4, 5, 14, 15]) ∧
    (agree 0xABCDE00F 0xABCDEF0F ∧ (0xABCDE00F : BitVec 32).toNat % 16 ∈ [0, 1, 4, 5, 14, 15]) ∧
    (agree 0xFE2 0x002 ∧ (0xFE2 : BitVec 32).toNat % 16 = 2 ∧
      (0xFE2 : BitVec 32).toNat / 16 % 2 = (0x002 : BitVec 32).toNat / 16 % 2) ∧
    ((0x012 : BitVec 32).toNat / 4096 = 0 ∧ (0x012 : BitVec 32).toNat % 16 = 2) ∧
    ((0xFD3 : BitVec 32).toNat / 4096 = 0 ∧ (0xFD3 : BitVec 32).toNat / 32 % 4 ≠ 3 ∧ (0xFD3 : BitVec 32).toNat % 16 = 3) ∧
    ((0x306 : BitVec 32).toNat / 4096 = 0 ∧ (0x306 : BitVec 32).toNat / 32 % 4 ≠ 3 ∧ (0x306 : BitVec 32).toNat % 16 = 6) ∧
    ((0x837 : BitVec 32).toNat / 4096 = 0 ∧ (0x837 : BitVec 32).toNat / 32 % 4 ≠ 3 ∧ (0x837 : BitVec 32).toNat % 16 = 7) := by
  decide

theorem test_hyps_DecodedCommandEncodesBack : decode 0xFE2 = .ok (.pllenc .a) ∧ decode 0xFFFFFFF8 = .ok .reserved8 :=
  ⟨rfl, rfl⟩

/-- The words at the edges of illegal and legal: 30_encoding R84(a), (b), (c), CLRF, RESET, and the largest legal one. -/
theorem test_hyps_IllegalWordRaisesIllcmd :
    (∀ w ∈ [0x8, 0xD, 0x1000, 0xFFFFFFF7, 0x63, 0x66, 0x67, 0xFE7],
      (running State.reset w).phase = .run ∧ (running State.reset w).events = [.engine] ∧
        illegalWord (running State.reset w).cmdLatch.toNat) ∧
    (∀ w ∈ [0x0, 0xFE2, 0xFD7, 0xFFFFFFFE, 0xABCDEF0F], ¬illegalWord (running State.reset w).cmdLatch.toNat) ∧
    (running State.reset 0xFFFFFFFE).cmdLatch.toNat % 16 = 14 ∧ (running State.reset 0xABCDEF0F).cmdLatch.toNat % 16 = 15 := by
  unfold illegalWord
  decide

theorem test_hyps_StepRunsLatchedCommand :
    (running State.reset 0x1).phase = .run ∧ decode (running State.reset 0x1).cmdLatch = .ok .approx ∧
    (running State.reset 0x1).events = [.engine] ∧ (State.reset.issue 0x1).phase = .run ∧
    decode (State.reset.issue 0x1).cmdLatch = .ok .approx ∧ (State.reset.issue 0x1).events = [] :=
  ⟨rfl, rfl, rfl, rfl, rfl, rfl⟩

theorem test_hyps_IdleEngineWaits :
    State.reset.phase = .idle ∧ State.reset.events = [] ∧
    ({ State.reset with events := [.engine] } : State).phase = .idle := by decide

/-- One state for each of the five lines of 30_encoding R82. -/
theorem test_hyps_CommandIssueTable :
    let at' (p : Phase) (f : Bool) (w : Word) : State :=
      { State.reset with phase := p, fault := f, events := [.hostWrite 8 w] }
    (at' .run true 0xF).events = [.hostWrite 8 0xF] ∧ (0xF : Word).toNat % 16 = 15 ∧
    (at' .run false 0x1).phase = .run ∧ (0x1 : Word).toNat % 16 ≠ 15 ∧
    (at' .idle true 0xE).fault = true ∧ (0xE : Word).toNat % 16 = 14 ∧
    (at' .idle true 0x1).fault = true ∧ (0x1 : Word).toNat % 16 ≠ 14 ∧
    (at' .idle false 0x1).phase = .idle ∧ (at' .idle false 0x1).fault = false := by decide

theorem test_hyps_HostWriteChangesOneRegister :
    let at' (p : Phase) (i : RegIndex) : State := { State.reset with phase := p, events := [.hostWrite i 5] }
    (at' .idle 0).events = [.hostWrite 0 5] ∧ ((0 : RegIndex) ≠ 8 ∧ (0 : RegIndex).toNat ≤ 7 ∧ (at' .idle 0).phase = .idle) ∧
    ((7 : RegIndex) ≠ 8 ∧ (7 : RegIndex).toNat ≤ 7 ∧ (at' .idle 7).phase = .idle) ∧
    ((7 : RegIndex) ≠ 8 ∧ ¬((7 : RegIndex).toNat ≤ 7 ∧ (at' .run 7).phase = .idle)) ∧
    ((9 : RegIndex) ≠ 8 ∧ ¬((9 : RegIndex).toNat ≤ 7 ∧ (at' .idle 9).phase = .idle)) ∧
    ((31 : RegIndex) ≠ 8 ∧ ¬((31 : RegIndex).toNat ≤ 7 ∧ (at' .idle 31).phase = .idle)) := by decide

theorem test_hyps_HostReadReturnsRegister :
    let at' (p : Phase) (i : RegIndex) : State := { State.reset with phase := p, events := [.hostRead i] }
    (at' .run 9).events = [.hostRead 9] ∧ (at' .run 9).phase = .run ∧
    (∀ i ∈ [(8 : RegIndex), 23, 31], i = 8 ∨ 23 ≤ i.toNat) ∧ (∀ i : RegIndex, (at' .idle i).phase = .idle) ∧
    (∀ i ∈ [(0 : RegIndex), 7, 10, 22], i.toNat ≤ 7 ∨ 10 ≤ i.toNat ∧ i.toNat ≤ 22) ∧
    (∀ i ∈ [(8 : RegIndex), 9, 23], ¬(i.toNat ≤ 7 ∨ 10 ≤ i.toNat ∧ i.toNat ≤ 22)) := by decide

theorem test_hyps_RegisterIndexMap : 23 ≤ (23 : RegIndex).toNat ∧ 23 ≤ (31 : RegIndex).toNat := by decide

theorem test_hyps_TxBufferWordLayout : (8 : Nat) < 9 ∧ (1 : Nat) < 2 := by decide

theorem test_hyps_ResetGivesResetState :
    ({ State.reset with num := 9, events := [.resetInput] } : State).events = [.resetInput] ∧
    ({ State.reset with num := 9, events := [.hostWrite 8 0xABCDEF0F] } : State).events = [.hostWrite 8 0xABCDEF0F] ∧
    (0xABCDEF0F : Word).toNat % 16 = 15 := by decide

/-- E1, V2, V9. -/
theorem test_hyps_ApproxPassesThrough : (0 < 1048575 ∧ 1048575 ≤ 1048575) ∧ (0 < 1 ∧ 1 ≤ 1048575) := by decide

/-- V8 below the bound, V2 at it. -/
theorem test_hyps_ApproxDenominatorWithinBound :
    (0 < 1048576 ∧ 1 ≤ 1048575 ∧ 1048575 < 1048576) ∧ (0 < 1048575 ∧ 1 ≤ 1048575 ∧ 1048575 ≤ 1048575) := by decide

/-- V15d for INX = 1, 1000000/3000000 scaled down (V6) for INX = 0. -/
theorem test_hyps_ApproxLowestTermsAndValue :
    (100 < 113 ∧ 1 ≤ 100 ∧ approx 355 113 100 = .ok ⟨22, 7, true, true⟩) ∧
    (10 < 12 ∧ 1 ≤ 10 ∧ approx 4 12 10 = .ok ⟨1, 3, true, false⟩) := ⟨⟨by decide, by decide, rfl⟩, by decide, by decide, rfl⟩

theorem test_hyps_ApproxResultNeverGrows :
    (1 ≤ 100 ∧ approx 355 113 100 = .ok ⟨22, 7, true, true⟩) ∧ (1 ≤ 1 ∧ approx 7 22 1 = .ok ⟨0, 1, true, true⟩) :=
  ⟨⟨by decide, rfl⟩, by decide, rfl⟩

/-- Cut off (V15d, and V15b at MAXDEN = 1), and not cut off. -/
theorem test_hyps_ApproxIsLastConvergentInBound :
    (100 < 113 ∧ 1 ≤ 100 ∧ quotients 114 355 113 = [3, 7, 16]) ∧ (1 < 22 ∧ 1 ≤ 1 ∧ quotients 23 7 22 = [0, 3, 7]) ∧
    (10 < 12 ∧ 1 ≤ 10 ∧ quotients 13 4 12 = [0, 3]) := by decide

theorem test_hyps_ApproxOfZeroNumerator : (0 < 8 ∧ 1 ≤ 7 ∧ 7 < 8) ∧ (0 < 7 ∧ 1 ≤ 7 ∧ ¬7 < 7) := by decide

/-- V12, whose 31st iteration is the one that stops, and V8 at the boundary. -/
theorem test_hyps_ApproxLoopRunsAtMost31Times : 1048575 < 2178309 ∧ 1048575 < 1048576 := by decide

/-- 40_approx R108's worst case: 30 iterations do not reach the exit on the bound, 31 do. -/
theorem test_approx_worst_case :
    approxLoop 1048575 30 (convStart 1346269 2178309) = ⟨514229, 832040, true, false⟩ ∧
    approxLoop 1048575 31 (convStart 1346269 2178309) = ⟨514229, 832040, true, true⟩ := by decide

/-- V30, a proper fraction, and V24, an improper one. -/
theorem test_hyps_FieldsSplitTheRatio :
    (1048574 ≠ 0 ∧ 1048575 ≠ 0 ∧ 1048574 < 1048575) ∧ (5 ≠ 0 ∧ 3 ≠ 0 ∧ ¬5 < 3) := by decide

theorem test_hyps_ApproxCommandResult :
    let s : State := { State.reset with num := 5, den := 1048576 }
    s.den ≠ 0 ∧ s.maxden ≠ 0 ∧ s.maxden.toNat < s.den.toNat := by decide

theorem test_hyps_ApproxCommandFaults :
    State.reset.den = 0 ∧ ({ State.reset with den := 7, maxden := 0 } : State).den ≠ 0 ∧
    ({ State.reset with den := 7, maxden := 0 } : State).maxden = 0 := by decide

theorem test_hyps_PllencIntegerMode : State.reset.num = 0 ∧ State.reset.den = 0 := by decide

theorem test_hyps_PllencFractionalMode :
    let s : State := { State.reset with mult := 30, num := 1, den := 3 }
    s.num ≠ 0 ∧ s.den ≠ 0 := by decide

theorem test_hyps_MsencDivideByFour :
    channelOf 0 = some .ch0 ∧ channelOf 1 = some .ch1 ∧ channelOf 2 = some .ch2 ∧
    ({ State.reset with div := 4, num := 7 } : State).div = 4 := by decide

theorem test_hyps_MsencIntegerMode :
    channelOf 2 = some .ch2 ∧ ({ State.reset with div := 104 } : State).div ≠ 4 ∧
    ({ State.reset with div := 104 } : State).num = 0 := by decide

theorem test_hyps_MsencFractionalMode :
    let s : State := { State.reset with div := 83, num := 1, den := 5 }
    channelOf 0 = some .ch0 ∧ s.div ≠ 4 ∧ s.num ≠ 0 ∧ s.den ≠ 0 := by decide

theorem test_hyps_EncoderFaults :
    let s : State := { State.reset with div := 83, num := 1 }
    s.num ≠ 0 ∧ s.den = 0 ∧ s.div ≠ 4 ∧ (0 : BitVec 2) ≠ 3 ∧ (2 : BitVec 2) ≠ 3 := by decide

/-- V59c: the largest quotient tried that fits. -/
theorem test_hyps_RatfpCommandResult :
    let s : State := { State.reset with ref := 832000000, hmul := 5, freq := 1 }
    s.freq ≠ 0 ∧ s.maxden ≠ 0 ∧ s.ref.toNat * s.hmul.toNat / s.freq.toNat < 2 ^ 32 := by decide

/-- V67d: the largest operands. -/
theorem test_hyps_RatfdCommandResult :
    let m : Word := 4294967295
    let s : State := { State.reset with freq := m, div := m, ref := m, hmul := m }
    s.ref ≠ 0 ∧ s.hmul ≠ 0 ∧ s.maxden ≠ 0 ∧ s.freq.toNat * s.div.toNat / (s.ref.toNat * s.hmul.toNat) < 2 ^ 32 := by
  decide

/-- One state per cause and strategy; the quotients are exactly 2^32. -/
theorem test_hyps_RatioCommandFaults :
    let z : State := State.reset
    let x : State := { State.reset with ref := 1, hmul := 1, freq := 1, maxden := 0 }
    let o : State := { State.reset with ref := 65536, hmul := 65536, freq := 1 }
    let p : State := { State.reset with ref := 1, hmul := 1, freq := 65536, div := 65536 }
    (0 : BitVec 2) ≠ 3 ∧ (z.freq = 0 ∧ z.ref = 0) ∧ (x.freq ≠ 0 ∧ x.ref ≠ 0 ∧ x.hmul ≠ 0 ∧ x.maxden = 0) ∧
    (o.freq ≠ 0 ∧ o.maxden ≠ 0 ∧ 2 ^ 32 ≤ o.ref.toNat * o.hmul.toNat / o.freq.toNat) ∧
    (p.ref ≠ 0 ∧ p.hmul ≠ 0 ∧ p.maxden ≠ 0 ∧ 2 ^ 32 ≤ p.freq.toNat * p.div.toNat / (p.ref.toNat * p.hmul.toNat)) := by
  decide

/-- E7's operands. -/
theorem test_hyps_SetfpEqualsRatfpThenMsenc :
    let s : State := { State.reset with ref := 832000000, hmul := 1, freq := 10000000 }
    (2 : BitVec 2) ≠ 3 ∧ s.freq ≠ 0 ∧ s.maxden ≠ 0 ∧ s.ref.toNat * s.hmul.toNat / s.freq.toNat < 2 ^ 32 := by decide

/-- V70's operands. -/
theorem test_hyps_SetfdEqualsSeparateCommands :
    let s : State := { State.reset with freq := 120000000, div := 6, ref := 26000000, hmul := 1 }
    (0 : BitVec 2) ≠ 3 ∧ s.ref ≠ 0 ∧ s.hmul ≠ 0 ∧ s.maxden ≠ 0 ∧
    s.freq.toNat * s.div.toNat / (s.ref.toNat * s.hmul.toNat) < 2 ^ 32 := by decide

/-- V88 and V90. -/
theorem test_hyps_NopSetsDoneOnly :
    ∀ w ∈ [0xFE0, 0x80000000], (running State.reset w).phase = .run ∧ (running State.reset w).events = [.engine] ∧
      (running State.reset w).cmdLatch.toNat % 16 = 0 := by decide

theorem test_hyps_ClrfClearsFaultAndFlags :
    let s : State := running { State.reset with fault := true, cause := 4 } 0xFFFFFFFE
    s.phase = .run ∧ s.events = [.engine] ∧ s.cmdLatch.toNat % 16 = 14 := by decide

theorem test_hyps_ReservedOpcodesRaiseIllcmd :
    Instr.reservedD ∈ [Instr.reserved8, .reserved9, .reservedA, .reservedB, .reservedC, .reservedD] := by decide

theorem test_hyps_FaultChangesOnlyStatus :
    exec .approx State.reset = .next (raised State.reset 2) ∧ State.reset.fault = false ∧
    (raised State.reset 2).fault = true := ⟨rfl, rfl, rfl⟩

/-- A word for each range of opcodes of `causesOf`, each raising one of its causes. -/
theorem test_hyps_FaultCausesByCommand :
    [0x1000, 0x1, 0x1003, 0x4, 0x7, 0xD].map (fun w => see (step (running State.reset w)) (fun t => (t.fault, t.cause))) =
      [some (true, 1), some (true, 2), some (true, 1), some (true, 4), some (true, 4), some (true, 1)] ∧
    State.reset.fault = false ∧ (running State.reset 0x1).phase = .run := by decide

theorem test_hyps_GeneralRegisterFrame :
    exec .nop State.reset = .next State.reset.complete ∧ GReg.num ∉ writesOf .nop ∧ GReg.maxden ∉ writesOf .approx :=
  ⟨rfl, by decide, by decide⟩

/-- Two states that differ only in registers SETFD does not read, results and flags of earlier commands among them, and
a command of each kind that writes them. -/
theorem test_hyps_CommandsReadOnlyTheirOperands :
    let s : State := { State.reset with freq := 120000000, div := 6, ref := 26000000, hmul := 1 }
    let s' : State := { s with num := 7, mult := 3, pp1 := 5, mp3 := 9, flags := ⟨true, true, true, true, true⟩ }
    (∀ r ∈ readsOf (.setfd .b 1 0 2), s.getG r = s'.getG r) ∧ s.chip = s'.chip ∧ s.fault = false ∧ s'.fault = false ∧
    see (exec (.setfd .b 1 0 2) s) State.fault = some false ∧ see (exec (.setfd .b 1 0 2) s') State.fault = some false ∧
    writesPll (.setfd .b 1 0 2) = true ∧ writesMs (.setfd .b 1 0 2) = true ∧ Instr.setfd .b 1 0 2 ≠ .nop ∧
    see (exec .approx s) State.fault = some true ∧ see (exec .approx s') State.fault = some true := by decide

theorem test_hyps_ReplayIsIdempotent :
    isEncoding (.pllenc .a) = true ∧ see (exec (.pllenc .a) State.reset) State.fault = some false ∧
    see (exec .approx { State.reset with num := 5, den := 1048576 }) State.fault = some false := by decide

theorem test_hyps_EmissionOrder :
    see (exec (.pllenc .a) State.reset) State.done = some true ∧ see (exec .approx State.reset) State.done = some false := by
  decide

theorem test_hyps_TxStreamOnlyGrows :
    see (step (running { State.reset with div := 83 } 0x3)) (fun t => t.txStream.map List.length) = some [9, 2] := by decide

/-- A register write, a command and a read while BUSY leave RADE BUSY. -/
theorem test_hyps_BusyHoldsEverything :
    [Event.hostWrite 0 5, .hostWrite 8 1, .hostRead 9].map (fun e =>
      see (step { State.reset with phase := .run, events := [e] }) State.phase) = List.replicate 3 (some .run) := by decide

theorem test_hyps_StepKeepsStatusInvariant :
    (running State.reset 0x1).StatusInv ∧
    (running { State.reset with fault := true, cause := 4 } 0xE).StatusInv ∧
    see (step (running State.reset 0x1)) State.fault = some true := by decide

theorem test_hyps_StepKeepsBufferInvariant :
    (running State.reset 0x2).BufferInv ∧ see (step (running State.reset 0x2)) State.pp3 = some 1 := by decide

/-- A fault, then CLRF issued while FAULT = 1: BUSY alone is shown, and the stored bit waits for the completion. -/
theorem test_hyps_BusyDoneFaultNeverTogether :
    see (Sys2Proof.core.run 3 { State.reset with events := [.hostWrite 8 8, .engine, .hostWrite 8 14] })
      (fun t => (t.fault, t.cause, t.statusWord)) = some (true, 1, 0x1) := by decide

/-- The invariant's three cases with a bit shown: BUSY over a stored fault, FAULT, DONE. -/
theorem test_hyps_BusyDoneFaultNeverTogether_inv :
    (running { State.reset with fault := true, cause := 4 } 0xE).StatusInv ∧
    ({ State.reset with fault := true, cause := 4 } : State).StatusInv ∧
    ({ State.reset with done := true } : State).StatusInv := by decide

theorem test_hyps_ChipConstantsNeverChange :
    see (step { State.reset with events := [.hostRead 9] }) State.reads = some [(9, 0)] := by decide

theorem test_hyps_RespectfulHostLosesNothing :
    let at' (p : Phase) (e : Event) : State := { State.reset with phase := p, events := [e] }
    (at' .idle (.hostWrite GReg.num.index 5)).respectsBusy = true ∧ (at' .idle (.hostWrite GReg.hmul.index 5)).respectsBusy = true ∧
    ((at' .idle (.hostWrite 8 1)).respectsBusy = true ∧ (at' .idle (.hostWrite 8 1)).fault = false ∧ (1 : Word).toNat % 16 ≠ 15) ∧
    (at' .run (.hostWrite 8 0xF)).respectsBusy = true ∧
    (at' .run (.hostRead 9)).respectsBusy = true ∧ (at' .idle (.hostRead 0)).respectsBusy = true ∧
    (at' .run (.hostRead 0)).respectsBusy = false := by decide

theorem test_hyps_UnwaitedWriteHasTwoOutcomes :
    let s : State := { State.reset with num := 2000000, den := 10000000 }
    s.phase = .idle ∧ s.fault = false ∧ s.num = 2000000 ∧ s.den = 10000000 ∧ s.maxden = 1048575 := by decide

end Sys2Proof.Tests
end

section
/-! PROOF. The chip constants and the record of reads over one step (00_scope R9, 20_memory R61). -/

namespace Sys2Proof.Machine

@[simp] theorem State.setG_chip {xlen : Nat} (s : State xlen) (r : GReg) (v : Word xlen) :
    (s.setG r v).chip = s.chip := by cases r <;> rfl

@[simp] theorem State.setG_reads {xlen : Nat} (s : State xlen) (r : GReg) (v : Word xlen) :
    (s.setG r v).reads = s.reads := by cases r <;> rfl

@[simp] theorem State.hostRead_chip {xlen : Nat} (s : State xlen) (i : RegIndex) :
    (s.hostRead i).chip = s.chip := rfl

@[simp] theorem State.hostRead_reads {xlen : Nat} (s : State xlen) (i : RegIndex) :
    (s.hostRead i).reads = s.reads ++ [(i, s.readValue i)] := rfl

/-- No command changes the chip constants. -/
theorem CommandEffect.chip_eq {s t : State} {i : Instr} (h : CommandEffect s i t) : t.chip = s.chip := by
  cases h <;> simp

/-- No command touches the host's record: reads are the host's, not the engine's. -/
theorem CommandEffect.reads_eq {s t : State} {i : Instr} (h : CommandEffect s i t) : t.reads = s.reads := by
  cases h <;> simp

/-- From s to t the chip constants stay and the record of reads is only appended to. -/
def KeepsChipExtendsReads (s t : State) : Prop := t.chip = s.chip ∧ s.reads <+: t.reads

/-- Whatever leaves both fields alone keeps the one and extends the other by nothing. -/
theorem KeepsChipExtendsReads.of_eq {s t : State} (hchip : t.chip = s.chip) (hreads : t.reads = s.reads) :
    KeepsChipExtendsReads s t := ⟨hchip, hreads ▸ List.prefix_rfl⟩

/-- A host read is the one thing in a step that extends the record. -/
theorem State.hostRead_keepsChipExtendsReads (s : State) (i : RegIndex) :
    KeepsChipExtendsReads s (s.hostRead i) := ⟨s.hostRead_chip i, by simp⟩

theorem step_keepsChipExtendsReads : ∀ s t : State, step s = .next t → KeepsChipExtendsReads s t := by
  apply step_relates
  case refl => exact fun s => .of_eq rfl rfl
  case events => exact fun s t es h => h
  case read => exact State.hostRead_keepsChipExtendsReads
  case write => exact fun s r v _ => .of_eq (s.setG_chip r v) (s.setG_reads r v)
  case issue => exact fun s w _ _ _ => .of_eq (s.issue_chip w) (s.issue_reads w)
  case reset => exact fun s => .of_eq s.resetRade_chip s.resetRade_reads
  case illegal => exact fun s _ _ _ => .of_eq (s.raise_chip .illcmd) (s.raise_reads .illcmd)
  case command => exact fun s i t _ _ h => .of_eq h.chip_eq h.reads_eq

end Sys2Proof.Machine

/-- Settles O56, by the case analysis of one step: nothing in it writes the chip constants, and only a host read touches the
record, by appending. -/
theorem chipConstantsNeverChange : Obligations.ChipConstantsNeverChange := by
  intro s t h
  obtain ⟨hchip, e, he⟩ := Sys2Proof.Machine.step_keepsChipExtendsReads s t h
  exact ⟨hchip, e, he.symm⟩
end

section
/-! PROOF. What every step keeps: the invariant of the control state (10_state R25, R26) and that of the result registers
(10_state R29, R31). -/

namespace Sys2Proof.Machine

/-! The invariant of the control state over one step. -/

/-- While IDLE only DONE, FAULT and CAUSE are left of the control invariant. -/
theorem State.StatusInv.of_idle {t : State} (hphase : t.phase = .idle) (hdone : t.fault = true → t.done = false)
    (hzero : t.fault = false → t.cause = 0) (hcode : t.fault = true → 1 ≤ t.cause.toNat ∧ t.cause.toNat ≤ 5) :
    t.StatusInv := by
  simp only [State.StatusInv, hphase]
  exact ⟨nofun, hdone, nofun, nofun, hzero, hcode⟩

/-- No cause has the code 0 or a reserved code (60_exceptions R222). -/
theorem Cause.code_range (c : Cause) : 1 ≤ c.code.toNat ∧ c.code.toNat ≤ 5 := by cases c <;> decide

theorem State.raise_statusInv (s : State) (c : Cause) : (s.raise c).StatusInv :=
  .of_idle rfl (fun _ => rfl) nofun fun _ => c.code_range

theorem State.resetRade_statusInv (s : State) : s.resetRade.StatusInv :=
  .of_idle rfl nofun (fun _ => rfl) nofun

/-- From a fault-free state a completion may set DONE: FAULT and CAUSE stay 0. -/
theorem State.StatusInv.of_committed {s t : State} (inv : s.StatusInv) (hs : s.fault = false) (hphase : t.phase = .idle)
    (hfault : t.fault = s.fault) (hcause : t.cause = s.cause) : t.StatusInv := by
  obtain ⟨-, -, -, -, hzero, -⟩ := inv
  rw [hs] at hfault
  exact .of_idle hphase (by simp [hfault]) (fun _ => hcause.trans (hzero hs)) (by simp [hfault])

/-- OP 0xE decodes to CLRF whatever the other bits (30_encoding R84). -/
theorem decode_of_opField_clrf {w : BitVec 32} (h : opField w = 0xE) : decode w = .ok .clrf := by
  simp [decode, h]

/-- A command other than CLRF runs only without a fault (30_encoding R82). -/
theorem State.StatusInv.fault_eq_false {s : State} {i : Instr} (inv : s.StatusInv) (hp : s.phase = .run)
    (hi : decode s.cmdLatch = .ok i) (hne : i ≠ .clrf) : s.fault = false := by
  obtain ⟨-, -, hclrf, -⟩ := inv
  by_contra hf
  rw [decode_of_opField_clrf (hclrf hp (by simpa using hf))] at hi
  cases hi
  exact hne rfl

/-- Every completion ends in IDLE (10_state R25(b)). -/
theorem CommandEffect.phase_eq {s t : State} {i : Instr} (h : CommandEffect s i t) : t.phase = .idle := by
  cases h <;> rfl

/-- What a command does to the other control fields: the fault record, a clear, or DONE with FAULT and CAUSE kept. -/
theorem CommandEffect.control_cases {s t : State} {i : Instr} (h : CommandEffect s i t) :
    (∃ c, t = s.raise c) ∨ (t.fault = false ∧ t.cause = 0 ∧ t.done = false) ∨
      (i ≠ .clrf ∧ t.fault = s.fault ∧ t.cause = s.cause ∧ t.done = true) := by
  cases h
  case raise c _ _ _ => exact .inl ⟨c, rfl⟩
  case clrf => exact .inr (.inl ⟨rfl, rfl, rfl⟩)
  case reset => exact .inr (.inl ⟨rfl, rfl, rfl⟩)
  all_goals exact .inr (.inr (by simp))

theorem CommandEffect.statusInv {s t : State} {i : Instr} (h : CommandEffect s i t) (hp : s.phase = .run)
    (hi : decode s.cmdLatch = .ok i) (inv : s.StatusInv) : t.StatusInv := by
  obtain ⟨c, rfl⟩ | ⟨hf, hc, _⟩ | ⟨hne, hf, hc, _⟩ := h.control_cases
  · exact s.raise_statusInv c
  · exact .of_idle h.phase_eq (by simp [hf]) (fun _ => hc) (by simp [hf])
  · exact inv.of_committed (inv.fault_eq_false hp hi hne) h.phase_eq hf hc

/-- An issue the table of 30_encoding R82 accepts keeps the control invariant. -/
theorem State.StatusInv.issue {s : State} {w : BitVec 32} (inv : s.StatusInv)
    (hclrf : s.fault = true → opField w = 0xE) (hreset : opField w ≠ 0xF) : (s.issue w).StatusInv := by
  obtain ⟨-, -, -, -, hzero, hcode⟩ := inv
  exact ⟨fun _ => rfl, fun _ => rfl, fun _ => hclrf, fun _ => hreset, hzero, hcode⟩

theorem State.StatusInv.setG {s : State} (inv : s.StatusInv) (r : GReg) (v : Word) : (s.setG r v).StatusInv := by
  cases r <;> exact inv

theorem step_keeps_statusInv : ∀ s t : State, step s = .next t → s.StatusInv → t.StatusInv := by
  apply step_relates
  case refl => exact fun s inv => inv
  case events => exact fun s t es h inv => h inv
  case read => exact fun s i inv => inv
  case write => exact fun s r v _ inv => inv.setG r v
  case issue => exact fun s w _ hclrf hreset inv => inv.issue hclrf hreset
  case reset => exact fun s _ => s.resetRade_statusInv
  case illegal => exact fun s _ _ _ _ => s.raise_statusInv .illcmd
  case command => exact fun s i t hp hi h inv => h.statusInv hp hi inv

/-! The invariant of the result registers over one step. -/

/-- The blank buffer carries blank fields (10_state R36). -/
theorem dividerTx_zero : dividerTx 0 (payload 0 0 0 0) = #v[0, 0, 0, 0, 0, 0, 0, 0, 0] := by decide

theorem State.resetRade_bufferInv (s : State) : s.resetRade.BufferInv :=
  ⟨dividerTx_zero.symm, dividerTx_zero.symm⟩

/-- A PLL encoding puts its fields and its buffer together, and leaves the output divider's alone. -/
theorem State.BufferInv.putPll {s : State} {chip : ChipParams} {pll : PllSel} {ip num den : Nat} {e : PllEncoding}
    (inv : s.BufferInv) (he : encodePll chip pll ip num den = .ok e) : (s.putPll e).BufferInv := by
  obtain ⟨-, hms⟩ := inv
  obtain ⟨-, -, htx⟩ := encodePll_tx he
  exact ⟨htx, hms⟩

/-- An output-divider encoding puts its fields and its buffer together, and leaves the PLL's alone. -/
theorem State.BufferInv.putMs {s : State} {chip : ChipParams} {pll : PllSel} {c : Channel} {rdiv : BitVec 3}
    {drv : BitVec 2} {div num den : Nat} {e : MsEncoding} (inv : s.BufferInv)
    (he : encodeMs chip pll c rdiv drv div num den = .ok e) : (s.putMs e).BufferInv := by
  obtain ⟨hpll, -⟩ := inv
  obtain ⟨-, -, -, -, htx⟩ := encodeMs_tx he
  exact ⟨hpll, htx⟩

theorem CommandEffect.bufferInv {s t : State} {i : Instr} (h : CommandEffect s i t) (inv : s.BufferInv) :
    t.BufferInv := by
  cases h
  case reset => exact s.resetRade_bufferInv
  case pllenc e he => simpa [State.BufferInv] using inv.putPll he
  case msenc e _ he => simpa [State.BufferInv] using inv.putMs he
  case setfp e _ _ he => simpa [State.BufferInv] using inv.putMs he
  case setfd ep em _ _ hp hm => simpa [State.BufferInv] using (inv.putPll hp).putMs hm
  all_goals exact inv

theorem State.BufferInv.setG {s : State} (inv : s.BufferInv) (r : GReg) (v : Word) : (s.setG r v).BufferInv := by
  cases r <;> exact inv

theorem step_keeps_bufferInv : ∀ s t : State, step s = .next t → s.BufferInv → t.BufferInv := by
  apply step_relates
  case refl => exact fun s inv => inv
  case events => exact fun s t es h inv => h inv
  case read => exact fun s i inv => inv
  case write => exact fun s r v _ inv => inv.setG r v
  case issue => exact fun s w _ _ _ inv => inv
  case reset => exact fun s _ => s.resetRade_bufferInv
  case illegal => exact fun s _ _ _ inv => inv
  case command => exact fun s i t _ _ h inv => h.bufferInv inv

end Sys2Proof.Machine

open Sys2Proof.Machine

/-- Settles O52, by the case analysis of one step: a command other than CLRF runs only without a fault, so DONE never joins
FAULT. -/
theorem stepKeepsStatusInvariant : Obligations.StepKeepsStatusInvariant :=
  fun s t inv h => step_keeps_statusInv s t h inv

/-- Settles O54, by the case analysis of one step: the encoders write a buffer together with its fields. -/
theorem stepKeepsBufferInvariant : Obligations.StepKeepsBufferInvariant :=
  fun s t inv h => step_keeps_bufferInv s t h inv

/-- Settles O55: both invariants hold after a reset, which `resetAround` writes out. -/
theorem invariantsHoldAtReset : Obligations.InvariantsHoldAtReset :=
  have both (s : State) : s.resetRade.StatusInv ∧ s.resetRade.BufferInv :=
    ⟨s.resetRade_statusInv, s.resetRade_bufferInv⟩
  ⟨both State.reset, both⟩
end

section
/-! PROOF. The words a host reads: the register indices, STATUS and the TX buffer words (10_state R26, R29, R32, R35), and
what STATUS shows along a run. -/

namespace Sys2Proof.Machine

/-- The host index of a general register reads it (10_state R20, R35). -/
theorem State.regWord_index (s : State) (r : GReg) : s.regWord r.index = s.getG r := by cases r <;> rfl

/-- The indices 23 to 31 hold no register (10_state R35). -/
theorem State.regWord_of_unused (s : State) {i : RegIndex} (h : 23 ≤ i.toNat) : s.regWord i = 0 := by
  have := i.isLt
  unfold State.regWord
  interval_cases i.toNat <;> rfl

/-- STATUS as a number: one summand per bit or field it shows (10_state R26). -/
theorem State.statusWord_toNat (s : State) : s.statusWord.toNat =
    (decide (s.phase = .run)).toNat + 2 * s.done.toNat + 4 * s.faultShown.toNat + 16 * s.causeShown.toNat +
      256 * s.flags.apx.toNat + 512 * s.flags.inx.toNat + 1024 * s.flags.intm.toNat + 2048 * s.flags.div4.toNat +
      4096 * s.flags.trunc.toNat := by
  simp only [State.statusWord, append_toNat, BitVec.toNat_ofBool]
  simp
  omega

@[simp] theorem State.faultShown_of_idle {s : State} (h : s.phase = .idle) : s.faultShown = s.fault := by
  simp [State.faultShown, h]

@[simp] theorem State.faultShown_of_run {s : State} (h : s.phase = .run) : s.faultShown = false := by
  simp [State.faultShown, h]

@[simp] theorem State.causeShown_of_idle {s : State} (h : s.phase = .idle) : s.causeShown = s.cause := by
  simp [State.causeShown, h]

@[simp] theorem State.causeShown_of_run {s : State} (h : s.phase = .run) : s.causeShown = 0 := by
  simp [State.causeShown, h]

/-- A TX word as a number: four bytes, the first the lowest (10_state R32). -/
theorem txWord_toNat (b0 b1 b2 b3 : Byte) :
    (txWord b0 b1 b2 b3).toNat = b0.toNat + 256 * b1.toNat + 65536 * b2.toNat + 16777216 * b3.toNat := by
  simp only [txWord, append_toNat]
  omega

/-- The byte of a TX word at each of its four places (10_state R32). -/
theorem txWord_byte (b0 b1 b2 b3 : Byte) :
    (txWord b0 b1 b2 b3).toNat % 256 = b0.toNat ∧ (txWord b0 b1 b2 b3).toNat / 256 % 256 = b1.toNat ∧
    (txWord b0 b1 b2 b3).toNat / 65536 % 256 = b2.toNat ∧ (txWord b0 b1 b2 b3).toNat / 16777216 % 256 = b3.toNat := by
  rw [txWord_toNat]
  omega

/-- Three words that hold a nine-byte buffer hold its byte k at place k mod 4 of word k div 4 (10_state R32). -/
theorem byte_of_txWords {v : Vector Byte 9} {word : Nat → BitVec 32} (h0 : word 0 = txWord v[0] v[1] v[2] v[3])
    (h1 : word 1 = txWord v[4] v[5] v[6] v[7]) (h2 : word 2 = txWord v[8] 0 0 0) (k : Nat) (hk : k < 9) :
    (word (k / 4)).toNat / 2 ^ (8 * (k % 4)) % 256 = v[k].toNat := by
  interval_cases k <;> simp [h0, h1, h2, txWord_byte]

/-- PLLTX at indices 16 to 18 (10_state R32, R35). -/
theorem State.regWord_pllTx_byte (s : State) (k : Nat) (h : k < 9) :
    (s.regWord (BitVec.ofNat 5 (16 + k / 4))).toNat / 2 ^ (8 * (k % 4)) % 256 = s.pllTx[k].toNat := by
  apply byte_of_txWords (word := fun j => s.regWord (BitVec.ofNat 5 (16 + j))) <;> simp [State.regWord]

/-- MSTX at indices 19 to 21 (10_state R32, R35). -/
theorem State.regWord_msTx_byte (s : State) (k : Nat) (h : k < 9) :
    (s.regWord (BitVec.ofNat 5 (19 + k / 4))).toNat / 2 ^ (8 * (k % 4)) % 256 = s.msTx[k].toNat := by
  apply byte_of_txWords (word := fun j => s.regWord (BitVec.ofNat 5 (19 + j))) <;> simp [State.regWord]

/-- PLLTX's last word holds its last byte alone. -/
theorem State.regWord_pllTx_last (s : State) : (s.regWord 18).toNat = s.pllTx[8].toNat := by
  simp [State.regWord, txWord_toNat]

/-- MSTX's last word holds its last byte alone. -/
theorem State.regWord_msTx_last (s : State) : (s.regWord 21).toNat = s.msTx[8].toNat := by
  simp [State.regWord, txWord_toNat]

/-- CCTX's one word (10_state R32). -/
theorem State.regWord_ccTx (s : State) : (s.regWord 22).toNat = s.ccTx[0].toNat + 256 * s.ccTx[1].toNat := by
  simp [State.regWord, txWord_toNat]

/-- A field register reads with its value: 20 bits or fewer lose nothing in 32 (10_state R29). -/
theorem setWidth_field_toNat {n : Nat} (x : BitVec n) (h : n ≤ 20 := by decide) : (x.setWidth 32).toNat = x.toNat :=
  BitVec.toNat_setWidth_of_le (by omega)

/-! At most one of BUSY, DONE and FAULT. -/

/-- BUSY, DONE, FAULT and CAUSE in their bits of the STATUS word (10_state R26). -/
theorem State.statusWord_bits (s : State) :
    s.statusWord.toNat % 2 = (decide (s.phase = .run)).toNat ∧ s.statusWord.toNat / 2 % 2 = s.done.toNat ∧
    s.statusWord.toNat / 4 % 2 = s.faultShown.toNat ∧ s.statusWord.toNat / 16 % 16 = s.causeShown.toNat := by
  have := Bool.toNat_le (decide (s.phase = .run))
  have := Bool.toNat_le s.done
  have := Bool.toNat_le s.faultShown
  have := s.causeShown.isLt
  rw [s.statusWord_toNat]
  omega

/-- Under the control invariant the STATUS word shows at most one of BUSY, DONE and FAULT (10_state R26). -/
theorem State.StatusInv.atMostOneShown {s : State} (inv : s.StatusInv) :
    Claims.atMostOneShown s.statusWord.toNat := by
  obtain ⟨hrun, hfault, -, -, hzero, -⟩ := inv
  obtain ⟨hbusy, hdone, hf, hc⟩ := s.statusWord_bits
  rw [Claims.atMostOneShown, hbusy, hdone, hf, hc]
  cases h : s.phase with
  | run => simp [h, hrun h]
  | idle =>
    cases hs : s.fault with
    | false => simp [h, hs, hzero hs, Bool.toNat_le]
    | true => simp [h, hs, hfault hs]

/-- The induction over a run, packaged: what every step keeps holds after any number of steps. -/
theorem run_keeps {P : State → Prop} (keeps : ∀ s t, step s = .next t → P s → P t) :
    ∀ (n : Nat) {s t : State}, P s → Sys2Proof.core.run n s = .next t → P t := by
  intro n
  induction n with
  | zero =>
    intro s t hP h
    cases h
    exact hP
  | succ n ih =>
    intro s t hP h
    cases hs : step s with
    | next u =>
      rw [run_succ_of_next (M := Sys2Proof.core) hs] at h
      exact ih (keeps s u hs hP) h
    | fault r => exact nomatch r
    | refused r => simp [Host.Core.run, Sys2Proof.core, hs] at h

end Sys2Proof.Machine

open Sys2Proof.Machine

/-- Settles O53: the control invariant gives it, holds at reset, and every step keeps it. -/
theorem busyDoneFaultNeverTogether : Obligations.BusyDoneFaultNeverTogether :=
  ⟨fun _ inv => inv.atMostOneShown, fun n es _ h =>
    have inv : ({ State.reset with events := es } : State).StatusInv := State.reset.resetRade_statusInv
    (run_keeps step_keeps_statusInv n inv h).atMostOneShown⟩

/-- Settles O11: each index is its own case of the register map, and the field registers are narrower than 32 bits. -/
theorem registerIndexMap : Obligations.RegisterIndexMap := by
  intro s
  exact ⟨s.regWord_index, rfl, by simp [State.regWord], setWidth_field_toNat _, setWidth_field_toNat _,
    setWidth_field_toNat _, setWidth_field_toNat _, setWidth_field_toNat _, setWidth_field_toNat _,
    fun _ => s.regWord_of_unused⟩

/-- Settles O12: STATUS summand by summand, the FAULT and CAUSE it shows by phase. -/
theorem statusWordLayout : Obligations.StatusWordLayout := by
  intro s
  rw [s.statusWord_toNat]
  cases h : s.phase <;> simp [h]

/-- Settles O13: the three buffers word by word, each word four bytes from the lowest. -/
theorem txBufferWordLayout : Obligations.TxBufferWordLayout := by
  intro s
  refine ⟨fun k h => ⟨s.regWord_pllTx_byte k h, s.regWord_msTx_byte k h⟩, fun k h => ?_, ?_, ?_, ?_⟩
  · rw [s.regWord_ccTx]
    interval_cases k <;> simp <;> omega
  · rw [s.regWord_pllTx_last]; exact s.pllTx[8].isLt
  · rw [s.regWord_msTx_last]; exact s.msTx[8].isLt
  · rw [s.regWord_ccTx]; omega
end

section
/-! PROOF. A step with its next event known, a reset by each of its three ways, and a step while BUSY (10_state R25, R36,
70_reset R245, R257). -/

namespace Sys2Proof.Machine

/-! A step, by the next event of the schedule (20_memory R71). -/

theorem step_of_noEvents {s : State} (h : s.events = []) : step s = engineTurn s := by
  simp [step, stepWith, engineTurn, h]

theorem step_of_engine {s : State} {es : List Event} (h : s.events = .engine :: es) :
    step s = engineTurn (s.withEvents es) := by
  simp [step, stepWith, engineTurn, h]

theorem step_of_hostWrite {s : State} {i : RegIndex} {v : Word} {es : List Event} (h : s.events = .hostWrite i v :: es) :
    step s = .next ((s.withEvents es).hostWrite i v) := by
  simp [step, stepWith, h]

theorem step_of_resetInput {s : State} {es : List Event} (h : s.events = .resetInput :: es) :
    step s = .next (s.withEvents es).resetRade := by
  simp [step, stepWith, h]

/-- The engine's turn while BUSY with a legal word in the latch (10_state R25(b)). -/
theorem engineTurn_of_decode {s : State} {i : Instr} (hp : s.phase = .run) (hi : decode s.cmdLatch = .ok i) :
    engineTurn s = exec i s := by
  simp [engineTurn, engineTurnWith, State.latchedCommand, hp, hi]

/-- The engine's turn always has a next state (10_state R25(b), 60_exceptions R221). -/
theorem engineTurn_next (s : State) : ∃ t, engineTurn s = .next t := by
  rcases engineTurn_cases s with ⟨_, h⟩ | ⟨_, i, _, h⟩ | ⟨_, _, _, h⟩
  · exact ⟨_, h⟩
  · obtain ⟨t, ht, _⟩ := exec_effect i s
    exact ⟨t, h.trans ht⟩
  · exact ⟨_, h⟩

/-- Nothing stops the machine (log 14). -/
theorem step_next (s : State) : ∃ t, step s = .next t := by
  rcases step_cases s with ⟨_, h⟩ | ⟨es, _, h⟩ | ⟨_, _, _, h⟩ | ⟨_, _, _, _, h⟩ | ⟨_, _, h⟩
  · exact h ▸ engineTurn_next s
  · exact h ▸ engineTurn_next _
  · exact ⟨_, h⟩
  · exact ⟨_, h⟩
  · exact ⟨_, h⟩

/-- OP 0xF, in arithmetic on the word. -/
theorem opField_eq_reset {w : BitVec 32} (h : w.toNat % 16 = 15) : opField w = 0xF :=
  BitVec.eq_of_toNat_eq (by rw [opField_toNat, h]; rfl)

/-- A write of OP 0xF to CMD resets, whatever the phase (30_encoding R82). -/
theorem State.hostWrite_reset (s : State) {w : Word} (h : opField w = 0xF) : s.hostWrite 8 w = s.resetRade := by
  simp [State.hostWrite, State.writeCmd, h]

/-! A step while BUSY. -/

/-- If RADE is BUSY in s and in t, t is s but for the schedule, the record of reads and the count of draws. -/
def BusyHolds (s t : State) : Prop :=
  s.phase = .run → t.phase = .run → { t with events := s.events, reads := s.reads, draws := s.draws } = s

/-- A completion and a reset leave RADE idle, so nothing is claimed of them. -/
theorem BusyHolds.of_idle {s t : State} (h : t.phase = .idle) : BusyHolds s t :=
  fun _ ht => nomatch h.symm.trans ht

/-- A register write and an issue happen only while IDLE (20_memory R62, 30_encoding R82). -/
theorem BusyHolds.from_idle {s t : State} (h : s.phase = .idle) : BusyHolds s t :=
  fun hs => nomatch h.symm.trans hs

theorem BusyHolds.of_withEvents {s t : State} {es : List Event} (h : BusyHolds (s.withEvents es) t) : BusyHolds s t :=
  fun hs ht => congrArg (State.withEvents · s.events) (h hs ht)

theorem step_busyHolds : ∀ s t : State, step s = .next t → BusyHolds s t := by
  apply step_relates
  case refl => exact fun s _ _ => rfl
  case events => exact fun s t es h => h.of_withEvents
  case read => exact fun s i _ _ => rfl
  case write => exact fun s r v hidle => .from_idle hidle
  case issue => exact fun s w hidle _ _ => .from_idle hidle
  case reset => exact fun s => .of_idle rfl
  case illegal => exact fun s _ _ _ => .of_idle rfl
  case command => exact fun s i t _ _ h => .of_idle h.phase_eq

end Sys2Proof.Machine

open Sys2Proof.Machine

/-- Settles O51, by the case analysis of one step: what changes RADE starts or ends in IDLE. -/
theorem busyHoldsEverything : Obligations.BusyHoldsEverything :=
  fun s t hs h ht => step_busyHolds s t h hs ht

/-- Settles O57: a step and a command's effect always have a next state. -/
theorem everyStepHasANextState : Obligations.EveryStepHasANextState := by
  refine fun s => ⟨step_next s, fun i => ?_⟩
  obtain ⟨t, ht, heffect⟩ := exec_effect i s
  exact ⟨t, ht, heffect.phase_eq⟩

/-- Settles O6: the engine's turn runs what the latch decodes to. -/
theorem stepRunsLatchedCommand : Obligations.StepRunsLatchedCommand :=
  fun _ _ hp hi => ⟨fun _ h => (step_of_engine h).trans (engineTurn_of_decode hp hi),
    fun h => (step_of_noEvents h).trans (engineTurn_of_decode hp hi)⟩

/-- Settles O14: `resetAround` is `resetRade` written out, and each of the three ways leads there. -/
theorem resetGivesResetState : Obligations.ResetGivesResetState :=
  fun s => ⟨exec_reset_eq s, fun _ h => step_of_resetInput h, fun _ es h hw =>
    (step_of_hostWrite h).trans (congrArg _ ((s.withEvents es).hostWrite_reset (opField_eq_reset hw)))⟩

/-- Settles O15: the reset state is the reset of itself, and its STATUS word and MAXDEN are closed values. -/
theorem stateAfterReset : Obligations.StateAfterReset := ⟨rfl, by decide, by decide⟩
end

section
/-! PROOF. A command as a function of its operands: what it reads and what it writes (10_state R20, R21, R28).
`completionOf i s` says, as data taken from the operands alone, what command i does; `exec_eq_run` ties it to `exec`. -/

namespace Sys2Proof.Machine

open Sys2Proof.Claims

/-- What a successful completion writes: general registers, result flags, and what each encoder made. -/
structure Commit where
  reg : GReg → Option Word := fun _ => none
  flags : Option ResultFlags := none
  pll : Option PllEncoding := none
  ms : Option MsEncoding := none

/-- The TX stream after a commit: PLLTX, then MSTX and CCTX (20_memory R67). -/
def Commit.emitOnto (c : Commit) (txs : List Transaction) : List Transaction :=
  let afterPll := c.pll.elim txs fun e => txs ++ [e.tx.toList]
  c.ms.elim afterPll fun e => afterPll ++ [e.tx.toList] ++ [e.cc.toList]

/-- The state a successful completion leaves: a field the commit does not write keeps its value. -/
def Commit.apply (c : Commit) (s : State) : State :=
  { s with
    num := (c.reg .num).getD s.num, den := (c.reg .den).getD s.den, maxden := (c.reg .maxden).getD s.maxden
    mult := (c.reg .mult).getD s.mult, div := (c.reg .div).getD s.div, freq := (c.reg .freq).getD s.freq
    ref := (c.reg .ref).getD s.ref, hmul := (c.reg .hmul).getD s.hmul
    flags := c.flags.getD s.flags
    pp1 := c.pll.elim s.pp1 (·.fields.p1), pp2 := c.pll.elim s.pp2 (·.fields.p2), pp3 := c.pll.elim s.pp3 (·.fields.p3)
    pllTx := c.pll.elim s.pllTx (·.tx)
    mp1 := c.ms.elim s.mp1 (·.fields.p1), mp2 := c.ms.elim s.mp2 (·.fields.p2), mp3 := c.ms.elim s.mp3 (·.fields.p3)
    msTx := c.ms.elim s.msTx (·.tx), ccTx := c.ms.elim s.ccTx (·.cc)
    txStream := c.emitOnto s.txStream
    done := true, phase := .idle }

/-- What a command does at its completion. -/
inductive Completion where
  | commit (c : Commit)
  | raise (f : Cause)
  | clearFault
  | resetRade

/-- The state a completion leaves. -/
def Completion.run : Completion → State → State
  | .commit c, s => c.apply s
  | .raise f, s => s.raise f
  | .clearFault, s => s.clearFault
  | .resetRade, s => s.resetRade

/-- The completion of a rule that commits or faults (10_state R25(b)). -/
def Completion.ofExcept : Except Cause Commit → Completion
  | .ok c => .commit c
  | .error f => .raise f

/-- NUM and DEN from an approximated fraction (40_approx R104). -/
def fracRegs (r : ApproxResult) : GReg → Option Word
  | .num => some (BitVec.ofNat 32 r.num)
  | .den => some (BitVec.ofNat 32 r.den)
  | _ => none

/-- The quotient in its register q besides NUM and DEN (43_ratio R156, R159). -/
def ratioRegs (q : GReg) (r : Ratio) (g : GReg) : Option Word :=
  if g = q then some (BitVec.ofNat 32 r.quot) else fracRegs r.frac g

/-- The channel a command names, or ILLCMD (30_encoding R84(c)). -/
def channelOrIllcmd (ch : BitVec 2) : Except Cause Channel :=
  match channelOf ch with
  | none => .error .illcmd
  | some c => .ok c

/-- What each command commits, or its fault, from its operands (10_state R20). -/
def completionOf (i : Instr) (s : State) : Completion :=
  match i with
  | .nop => .commit {}
  | .approx => .ofExcept <| (approx s.num.toNat s.den.toNat s.maxden.toNat).map fun r =>
      { reg := fracRegs r, flags := some (approxFlags r) }
  | .pllenc pll => .ofExcept <| (encodePll s.chip pll s.mult.toNat s.num.toNat s.den.toNat).map fun e =>
      { flags := some (pllencFlags s.num.toNat e.fields), pll := some e }
  | .msenc pll ch rdiv drv => .ofExcept <| (channelOrIllcmd ch).bind fun c =>
      (encodeMs s.chip pll c rdiv drv s.div.toNat s.num.toNat s.den.toNat).map fun e =>
        { flags := some (msencFlags s.div.toNat s.num.toNat e.fields), ms := some e }
  | .ratfp => .ofExcept <| s.fixedPllRatio.map fun r =>
      { reg := ratioRegs .div r, flags := some (approxFlags r.frac) }
  | .ratfd => .ofExcept <| s.fixedDivRatio.map fun r =>
      { reg := ratioRegs .mult r, flags := some (approxFlags r.frac) }
  | .setfp pll ch rdiv drv => .ofExcept <| (channelOrIllcmd ch).bind fun c => s.fixedPllRatio.bind fun r =>
      (encodeMs s.chip pll c rdiv drv r.quot r.frac.num r.frac.den).map fun e =>
        { reg := ratioRegs .div r, flags := some (setfpFlags r e.fields), ms := some e }
  | .setfd pll ch rdiv drv => .ofExcept <| (channelOrIllcmd ch).bind fun c => s.fixedDivRatio.bind fun r =>
      (encodePll s.chip pll r.quot r.frac.num r.frac.den).bind fun ep =>
        (encodeMs s.chip pll c rdiv drv s.div.toNat 0 1).map fun em =>
          { reg := ratioRegs .mult r, flags := some (setfdFlags r s.div.toNat ep.fields em.fields)
            pll := some ep, ms := some em }
  | .reserved8 | .reserved9 | .reservedA | .reservedB | .reservedC | .reservedD => .raise .illcmd
  | .clrf => .clearFault
  | .reset => .resetRade

/-- Every command answers what its completion leaves. -/
theorem exec_eq_run (i : Instr) (s : State) : exec i s = .next ((completionOf i s).run s) := by
  cases i with
  | approx =>
    rcases exec_approx_cases s with ⟨_, hr, h⟩ | ⟨_, hr, h⟩ <;> simp only [completionOf, h, hr] <;> rfl
  | pllenc pll =>
    rcases exec_pllenc_cases pll s with ⟨_, he, h⟩ | ⟨_, he, h⟩ <;> simp only [completionOf, h, he] <;> rfl
  | msenc pll ch rdiv drv =>
    rcases exec_msenc_cases pll ch rdiv drv s with ⟨hc, h⟩ | ⟨_, _, hc, he, h⟩ | ⟨_, _, hc, he, h⟩ <;>
      simp only [completionOf, channelOrIllcmd, Except.bind, State.complete, State.emit, State.setFlags,
        State.putMs, *] <;> rfl
  | ratfp =>
    rcases exec_ratfp_cases s with ⟨_, hr, h⟩ | ⟨_, hr, h⟩ <;> simp only [completionOf, h, hr] <;> rfl
  | ratfd =>
    rcases exec_ratfd_cases s with ⟨_, hr, h⟩ | ⟨_, hr, h⟩ <;> simp only [completionOf, h, hr] <;> rfl
  | setfp pll ch rdiv drv =>
    rcases exec_setfp_cases pll ch rdiv drv s with ⟨hc, h⟩ | ⟨_, _, hc, hr, h⟩ | ⟨_, _, _, hc, hr, he, h⟩ |
      ⟨_, _, _, hc, hr, he, h⟩ <;> simp only [completionOf, channelOrIllcmd, Except.bind, *] <;> rfl
  | setfd pll ch rdiv drv =>
    rcases exec_setfd_cases pll ch rdiv drv s with ⟨hc, h⟩ | ⟨_, _, hc, hr, h⟩ | ⟨_, _, _, hc, hr, hp, h⟩ |
      ⟨_, _, _, _, hc, hr, hp, hm, h⟩ <;> simp only [completionOf, channelOrIllcmd, Except.bind, *] <;> rfl
  | _ => rfl

theorem run_of_exec {i : Instr} {s t : State} (h : exec i s = .next t) : t = (completionOf i s).run s := by
  rw [exec_eq_run] at h
  cases h
  rfl

/-- A completion depends on the general registers its command reads and on the chip constants, and on nothing else
(10_state R20, R28). -/
theorem completionOf_congr {i : Instr} {s s' : State} (hreads : ∀ r ∈ readsOf i, s.getG r = s'.getG r)
    (hchip : s.chip = s'.chip) : completionOf i s = completionOf i s' := by
  cases i <;> simp [readsOf] at hreads <;>
    simp [completionOf, State.fixedPllRatio, State.fixedDivRatio, hreads, hchip]

/-! What each command commits. -/

/-- The commit `c` writes what the rule of command `i` says it writes: the general registers of its list, the flags
unless it is NOP, and what its encoders make. -/
structure Commit.Fits (i : Instr) (c : Commit) : Prop where
  reg : ∀ g, (c.reg g).isSome = decide (g ∈ writesOf i)
  flags : c.flags.isSome = decide (i ≠ .nop)
  pll : c.pll.isSome = writesPll i
  ms : c.ms.isSome = writesMs i

/-- A completion that is one of command `i`. -/
def Completion.Fits (i : Instr) : Completion → Prop
  | .commit c => c.Fits i
  | .raise _ => True
  | .clearFault => i = .clrf
  | .resetRade => i = .reset

/-- What a rule commits at its end fits, if it does for every intermediate result. -/
theorem Completion.Fits.map {α : Type} {i : Instr} {f : α → Commit} (x : Except Cause α) (h : ∀ a, (f a).Fits i) :
    (Completion.ofExcept (x.map f)).Fits i := by
  cases x with
  | error e => trivial
  | ok a => exact h a

theorem Completion.Fits.bind {α : Type} {i : Instr} {f : α → Except Cause Commit} (x : Except Cause α)
    (h : ∀ a, (Completion.ofExcept (f a)).Fits i) : (Completion.ofExcept (x.bind f)).Fits i := by
  cases x with
  | error e => trivial
  | ok a => exact h a

theorem fracRegs_isSome (r : ApproxResult) (g : GReg) : (fracRegs r g).isSome = decide (g ∈ [GReg.num, .den]) := by
  cases g <;> rfl

theorem ratioRegs_isSome (q : GReg) (r : Ratio) (g : GReg) :
    (ratioRegs q r g).isSome = decide (g ∈ [q, .num, .den]) := by
  by_cases h : g = q
  · simp [ratioRegs, h]
  · simp [ratioRegs, h, fracRegs_isSome]

theorem completionOf_fits (i : Instr) (s : State) : (completionOf i s).Fits i := by
  cases i with
  | nop => exact ⟨fun _ => rfl, rfl, rfl, rfl⟩
  | approx => exact .map _ fun r => ⟨fracRegs_isSome r, rfl, rfl, rfl⟩
  | pllenc pll => exact .map _ fun e => ⟨fun _ => rfl, rfl, rfl, rfl⟩
  | msenc pll ch rdiv drv => exact .bind _ fun c => .map _ fun e => ⟨fun _ => rfl, rfl, rfl, rfl⟩
  | ratfp => exact .map _ fun r => ⟨ratioRegs_isSome .div r, rfl, rfl, rfl⟩
  | ratfd => exact .map _ fun r => ⟨ratioRegs_isSome .mult r, rfl, rfl, rfl⟩
  | setfp pll ch rdiv drv =>
    exact .bind _ fun c => .bind _ fun r => .map _ fun e => ⟨ratioRegs_isSome .div r, rfl, rfl, rfl⟩
  | setfd pll ch rdiv drv =>
    exact .bind _ fun c => .bind _ fun r => .bind _ fun ep => .map _ fun em =>
      ⟨ratioRegs_isSome .mult r, rfl, rfl, rfl⟩
  | clrf => rfl
  | reset => rfl
  | _ => trivial

/-! What a commit leaves. -/

@[simp] theorem Commit.apply_getG (c : Commit) (s : State) (g : GReg) :
    (c.apply s).getG g = (c.reg g).getD (s.getG g) := by
  cases g <;> rfl

/-- A commit appends to the stream, whatever stands in it (20_memory R66). -/
theorem Commit.emitOnto_eq (c : Commit) (txs : List Transaction) : c.emitOnto txs = txs ++ c.emitOnto [] := by
  rcases c with ⟨_, _, _ | _, _ | _⟩ <;> simp [Commit.emitOnto]

@[simp] theorem State.getG_raise (s : State) (f : Cause) (g : GReg) : (s.raise f).getG g = s.getG g := by
  cases g <;> rfl

@[simp] theorem State.getG_clearFault (s : State) (g : GReg) : s.clearFault.getG g = s.getG g := by
  cases g <;> rfl

/-- A reset gives every general register its reset value (10_state R36). -/
theorem State.getG_resetRade (s s' : State) (g : GReg) : s.resetRade.getG g = s'.resetRade.getG g := by
  cases g <;> rfl

theorem writesOf_reset (g : GReg) : g ∈ writesOf .reset := by cases g <;> decide

theorem Completion.run_getG {i : Instr} {k : Completion} (hk : k.Fits i) (s : State) {g : GReg} (hg : g ∉ writesOf i) :
    (k.run s).getG g = s.getG g := by
  cases k with
  | commit c =>
    have hnone : c.reg g = none := by simpa [hg] using hk.reg g
    simp [Completion.run, hnone]
  | raise f => exact s.getG_raise f g
  | clearFault => exact s.getG_clearFault g
  | resetRade => exact absurd (hk ▸ writesOf_reset g) hg

/-- Changed flags pass through a completion, or it writes its own. -/
theorem Completion.run_flags (k : Completion) (s : State) (f : ResultFlags) :
    ∃ g, k.run { s with flags := f } = { k.run s with flags := g } ∧
      (g = (k.run s).flags ∨ (g = f ∧ (k.run s).flags = s.flags)) := by
  cases k with
  | commit c =>
    refine ⟨c.flags.getD f, rfl, ?_⟩
    cases h : c.flags with
    | none => exact .inr ⟨rfl, by simp [Completion.run, Commit.apply, h]⟩
    | some g => exact .inl (by simp [Completion.run, Commit.apply, h])
  | raise e => exact ⟨f, rfl, .inr ⟨rfl, rfl⟩⟩
  | clearFault => exact ⟨_, rfl, .inl rfl⟩
  | resetRade => exact ⟨_, rfl, .inl rfl⟩

/-! Two states that one completion leaves. -/

/-- t and t' agree in what command `i` writes: DONE, general registers, flags, and the results of its encoders. -/
def SameResults (i : Instr) (t t' : State) : Prop :=
  t.done = t'.done ∧
  (∀ r ∈ writesOf i, t.getG r = t'.getG r) ∧
  (i ≠ .nop → t.flags = t'.flags) ∧
  (writesPll i = true → t.pp1 = t'.pp1 ∧ t.pp2 = t'.pp2 ∧ t.pp3 = t'.pp3 ∧ t.pllTx = t'.pllTx) ∧
  (writesMs i = true → t.mp1 = t'.mp1 ∧ t.mp2 = t'.mp2 ∧ t.mp3 = t'.mp3 ∧ t.msTx = t'.msTx ∧ t.ccTx = t'.ccTx)

/-- What a commit writes it writes alike over every state. -/
theorem Commit.Fits.sameResults {i : Instr} {c : Commit} (hc : c.Fits i) (s s' : State) :
    SameResults i (c.apply s) (c.apply s') := by
  refine ⟨rfl, fun g hg => ?_, fun hi => ?_, fun hp => ?_, fun hm => ?_⟩
  · obtain ⟨v, hv⟩ := Option.isSome_iff_exists.mp ((hc.reg g).trans (decide_eq_true hg))
    simp [hv]
  · obtain ⟨f, hf⟩ := Option.isSome_iff_exists.mp (hc.flags.trans (decide_eq_true hi))
    simp [Commit.apply, hf]
  · obtain ⟨e, he⟩ := Option.isSome_iff_exists.mp (hc.pll.trans hp)
    simp [Commit.apply, he]
  · obtain ⟨e, he⟩ := Option.isSome_iff_exists.mp (hc.ms.trans hm)
    simp [Commit.apply, he]

theorem sameResults_clearFault (s s' : State) : SameResults .clrf s.clearFault s'.clearFault :=
  ⟨rfl, nofun, fun _ => rfl, nofun, nofun⟩

theorem sameResults_resetRade (s s' : State) : SameResults .reset s.resetRade s'.resetRade :=
  ⟨rfl, fun g _ => s.getG_resetRade s' g, fun _ => rfl, fun _ => ⟨rfl, rfl, rfl, rfl⟩,
    fun _ => ⟨rfl, rfl, rfl, rfl, rfl⟩⟩

/-- The transactions a completion emits: those of its commit. -/
def Completion.emission : Completion → List Transaction
  | .commit c => c.emitOnto []
  | .raise _ | .clearFault | .resetRade => []

theorem Completion.run_txStream (k : Completion) (s : State) : (k.run s).txStream = s.txStream ++ k.emission := by
  cases k with
  | commit c => exact c.emitOnto_eq s.txStream
  | raise f => simp [Completion.run, Completion.emission]
  | clearFault => simp [Completion.run, Completion.emission]
  | resetRade => simp [Completion.run, Completion.emission]

/-- One completion over two fault-free states: the same fault and cause, and without a fault the same results. -/
theorem Completion.Fits.run_agrees {i : Instr} {k : Completion} (hk : k.Fits i) {s s' : State} (hs : s.fault = false)
    (hs' : s'.fault = false) :
    (k.run s).fault = (k.run s').fault ∧ ((k.run s).fault = true → (k.run s).cause = (k.run s').cause) ∧
      ((k.run s).fault = false → SameResults i (k.run s) (k.run s')) := by
  cases k with
  | commit c => exact ⟨hs.trans hs'.symm, fun h => absurd (hs.symm.trans h) nofun, fun _ => hk.sameResults s s'⟩
  | raise f => exact ⟨rfl, fun _ => rfl, nofun⟩
  | clearFault =>
    cases hk
    exact ⟨rfl, nofun, fun _ => sameResults_clearFault s s'⟩
  | resetRade =>
    cases hk
    exact ⟨rfl, nofun, fun _ => sameResults_resetRade s s'⟩

end Sys2Proof.Machine

open Sys2Proof.Machine

/-- Settles O46: the operands fix the completion, and one completion leaves the same results over both states. -/
theorem commandsReadOnlyTheirOperands : Obligations.CommandsReadOnlyTheirOperands := by
  intro i s s' t t' hreads hchip hs hs' h h'
  have hsame : completionOf i s = completionOf i s' := completionOf_congr hreads hchip
  obtain ⟨hfault, hcause, hresults⟩ := (completionOf_fits i s).run_agrees hs hs'
  rw [run_of_exec h, run_of_exec h', ← hsame]
  exact ⟨hfault, hcause, hresults, _, Completion.run_txStream _ s, Completion.run_txStream _ s'⟩

/-- Settles O45: what a command's commit does not write keeps its value. -/
theorem generalRegisterFrame : Obligations.GeneralRegisterFrame := by
  intro i s t h r hr
  rw [run_of_exec h]
  exact Completion.run_getG (completionOf_fits i s) s hr

/-- Settles O47: the flags are no operand of any completion. -/
theorem noCommandReadsFlags : Obligations.NoCommandReadsFlags := by
  intro i s f
  obtain ⟨g, hrun, hg⟩ := (completionOf i s).run_flags s f
  have hsame : completionOf i { s with flags := f } = completionOf i s :=
    completionOf_congr (fun r _ => by cases r <;> rfl) rfl
  exact ⟨_, g, exec_eq_run i s, by rw [exec_eq_run, hsame, hrun], hg⟩
end

section
/-! PROOF. The TX stream over a command and over one step (20_memory R65 to R67, R70). -/

namespace Sys2Proof.Machine

open Sys2Proof.Claims

/-- A command that completes appends what its TX buffers then hold, in the order of 20_memory R67; a fault, CLRF and RESET
leave the stream as it is. -/
theorem CommandEffect.txStream_eq {s t : State} {i : Instr} (h : CommandEffect s i t) :
    t.txStream = s.txStream ++ (if t.done = true then emissionOf t i else []) := by
  cases h
  case raise | clrf | reset => simp
  all_goals simp [emissionOf]

/-- A whole transaction at one of the eight target addresses (20_memory R65, R70): nine bytes at a divider base, or two at
a clock-control address. -/
def IsChipTransaction (chip : ChipParams) (x : Transaction) : Prop :=
  (x.length = 9 ∧ x.head? ∈
    [some chip.pllBaseA, some chip.pllBaseB, some chip.msBase0, some chip.msBase1, some chip.msBase2]) ∨
  (x.length = 2 ∧ x.head? ∈ [some chip.clkCtrl0, some chip.clkCtrl1, some chip.clkCtrl2])

theorem encodePll_isChipTransaction {chip : ChipParams} {pll : PllSel} {ip num den : Nat} {e : PllEncoding}
    (h : encodePll chip pll ip num den = .ok e) : IsChipTransaction chip e.tx.toList := by
  obtain ⟨hlen, hhead, -⟩ := encodePll_tx h
  refine .inl ⟨hlen, ?_⟩
  rw [hhead]
  cases pll <;> simp [pllBase]

theorem encodeMs_isChipTransaction {chip : ChipParams} {pll : PllSel} {c : Channel} {rdiv : BitVec 3} {drv : BitVec 2}
    {div num den : Nat} {e : MsEncoding} (h : encodeMs chip pll c rdiv drv div num den = .ok e) :
    IsChipTransaction chip e.tx.toList ∧ IsChipTransaction chip e.cc.toList := by
  obtain ⟨hlen, hhead, hcclen, hcchead, -⟩ := encodeMs_tx h
  refine ⟨.inl ⟨hlen, ?_⟩, .inr ⟨hcclen, ?_⟩⟩
  · rw [hhead]
    cases c <;> simp [msBase]
  · rw [hcchead]
    cases c <;> simp [clkCtrl]

/-- From s to t the TX stream gains whole transactions at the target addresses, and loses nothing. -/
def ExtendsTxStream (s t : State) : Prop :=
  ∃ e, t.txStream = s.txStream ++ e ∧ ∀ x ∈ e, IsChipTransaction s.chip x

theorem ExtendsTxStream.of_eq {s t : State} (h : t.txStream = s.txStream) : ExtendsTxStream s t :=
  ⟨[], by simp [h]⟩

theorem CommandEffect.extendsTxStream {s t : State} {i : Instr} (h : CommandEffect s i t) : ExtendsTxStream s t := by
  refine ⟨_, h.txStream_eq, ?_⟩
  cases h
  case pllenc e he => simpa [emissionOf] using encodePll_isChipTransaction he
  case msenc e _ he => simpa [emissionOf] using encodeMs_isChipTransaction he
  case setfp e _ _ he => simpa [emissionOf] using encodeMs_isChipTransaction he
  case setfd ep em _ _ hp hm =>
    simpa [emissionOf] using And.intro (encodePll_isChipTransaction hp) (encodeMs_isChipTransaction hm)
  all_goals simp [emissionOf]

@[simp] theorem State.setG_txStream {xlen : Nat} (s : State xlen) (r : GReg) (v : Word xlen) :
    (s.setG r v).txStream = s.txStream := by cases r <;> rfl

theorem step_extendsTxStream : ∀ s t : State, step s = .next t → ExtendsTxStream s t := by
  apply step_relates
  case refl => exact fun s => .of_eq rfl
  case events => exact fun s t es h => h
  case read => exact fun s i => .of_eq rfl
  case write => exact fun s r v _ => .of_eq (s.setG_txStream r v)
  case issue => exact fun s w _ _ _ => .of_eq (s.issue_txStream w)
  case reset => exact fun s => .of_eq s.resetRade_txStream
  case illegal => exact fun s _ _ _ => .of_eq (s.raise_txStream .illcmd)
  case command => exact fun s i t _ _ h => h.extendsTxStream

end Sys2Proof.Machine

open Sys2Proof.Machine

/-- Settles O49, by the cases of a command's effect. -/
theorem emissionOrder : Obligations.EmissionOrder :=
  fun _ _ _ h => (effect_of_exec h).txStream_eq

/-- Settles O50, by the case analysis of one step: only a completed encoding command emits, and its encoders address the
chip. -/
theorem txStreamOnlyGrows : Obligations.TxStreamOnlyGrows := step_extendsTxStream
end

section
/-! PROOF. The bounds of an approximated fraction (40_approx R105, R107(d)). -/

namespace Sys2Proof.Machine

/-- The loop of `approx` on n0 with the bound m, past its first advance: the last convergent's denominator is within the
bound, and its numerator with the remainders still makes n0 (40_approx R103). -/
structure ConvState.InBounds (n0 m : Nat) (c : ConvState) : Prop where
  numerator : c.p1 * c.n + c.p0 * c.d = n0
  falling : c.d < c.n
  pos : 1 ≤ c.q1
  le : c.q1 ≤ m

/-- The convergent's numerators keep making n0: p2*d + p1*(n mod d) = p1*n + p0*d. -/
theorem ConvState.advance_numerator (c : ConvState) :
    c.advance.p1 * c.advance.n + c.advance.p0 * c.advance.d = c.p1 * c.n + c.p0 * c.d := by
  simp only [advance_p1, advance_n, advance_p0, advance_d, p2, quot]
  calc (c.p0 + c.n / c.d * c.p1) * c.d + c.p1 * (c.n % c.d)
      = c.p1 * (c.d * (c.n / c.d) + c.n % c.d) + c.p0 * c.d := by ring
    _ = c.p1 * c.n + c.p0 * c.d := by rw [Nat.div_add_mod]

theorem ConvState.InBounds.advance {n0 m : Nat} {c : ConvState} (h : c.InBounds n0 m) (hd : c.d ≠ 0) (hq : c.q2 ≤ m) :
    c.advance.InBounds n0 m where
  numerator := c.advance_numerator.trans h.numerator
  falling := c.advance_d_lt hd
  pos := by
    have hquot : 0 < c.quot := Nat.div_pos h.falling.le (Nat.pos_of_ne_zero hd)
    exact (Nat.mul_pos hquot h.pos).trans_le (Nat.le_add_left _ c.q0)
  le := hq

/-- The first advance always happens, and makes the denominator 1. -/
theorem convStart_advance_inBounds {n d m : Nat} (hd : d ≠ 0) (hm : 1 ≤ m) : (convStart n d).advance.InBounds n m where
  numerator := by simpa using (convStart n d).advance_numerator
  falling := (convStart n d).advance_d_lt hd
  pos := by simp [ConvState.q2]
  le := by simpa [ConvState.q2] using hm

theorem approxLoop_bounds {n d m : Nat} {r : ApproxResult} (hd : d ≠ 0) (hm : 1 ≤ m)
    (hr : approxLoop m (d + 1) (convStart n d) = r) : r.num ≤ n ∧ 1 ≤ r.den ∧ r.den ≤ m := by
  rw [approxLoop_advance (c := convStart n d) hd (by simpa [ConvState.q2] using hm)] at hr
  obtain ⟨e, he, hres⟩ := approxLoop_stops (fun _ h hd hq => h.advance hd hq) d _
    (convStart_advance_inBounds (n := n) hd hm) ((convStart n d).advance_d_lt hd)
  have hnum : e.p1 ≤ n := calc
    e.p1 ≤ e.p1 * e.n := Nat.le_mul_of_pos_right _ (Nat.zero_lt_of_lt he.falling)
    _ ≤ n := he.numerator ▸ Nat.le_add_right ..
  rcases hres with ⟨-, h⟩ | ⟨-, -, h⟩ <;> rw [← hr, h] <;> exact ⟨hnum, he.pos, he.le⟩

/-- An approximated fraction has no greater numerator, and a denominator from 1 to the bound. -/
theorem approx_bounds {n d m : Nat} {r : ApproxResult} (h : approx n d m = .ok r) :
    r.num ≤ n ∧ 1 ≤ r.den ∧ r.den ≤ m := by
  rcases approx_cases n d m with ⟨_, hr⟩ | ⟨hd, hle, hr⟩ | ⟨_, _, hr⟩ | ⟨hm, hlt, hr⟩ <;> rw [hr] at h <;> cases h
  · exact ⟨le_rfl, Nat.one_le_iff_ne_zero.mpr hd, hle⟩
  · exact approxLoop_bounds (Nat.ne_zero_of_lt hlt) (Nat.one_le_iff_ne_zero.mpr hm) rfl

/-- A denominator within the bound passes through (40_approx R102). -/
theorem approx_of_le {n d m : Nat} (hd : d ≠ 0) (h : d ≤ m) : approx n d m = .ok ⟨n, d, false, false⟩ := by
  simp [approx, hd, h]

end Sys2Proof.Machine
end

section
/-! PROOF. A command issued again on the state it left (20_memory R75). -/

namespace Sys2Proof.Machine

open Sys2Proof.Claims

/-! APPROX on its own result. -/

theorem exec_approx_of_ok {s : State} {r : ApproxResult} (h : approx s.num.toNat s.den.toNat s.maxden.toNat = .ok r) :
    exec .approx s = .next ((s.putFrac r).setFlags (approxFlags r)).complete := by
  simp [exec, execApprox, h]

/-- An approximated fraction fits its registers and is within the bound, so it passes through unchanged. -/
theorem approx_of_approx {n d m : Word} {r : ApproxResult} (h : approx n.toNat d.toNat m.toNat = .ok r) :
    approx (BitVec.ofNat 32 r.num).toNat (BitVec.ofNat 32 r.den).toNat m.toNat = .ok ⟨r.num, r.den, false, false⟩ := by
  obtain ⟨hnum, hpos, hle⟩ := approx_bounds h
  have hn : (BitVec.ofNat 32 r.num).toNat = r.num := Nat.mod_eq_of_lt (by omega)
  have hd : (BitVec.ofNat 32 r.den).toNat = r.den := Nat.mod_eq_of_lt (by omega)
  rw [hn, hd]
  exact approx_of_le (by omega) hle

/-! An encoding command on the state it left. -/

/-- A commit over its own result writes the same again; only the stream grows. -/
theorem Commit.apply_apply (c : Commit) (s : State) :
    c.apply (c.apply s) = { c.apply s with txStream := (c.apply s).txStream ++ c.emitOnto [] } := by
  have getD_twice {α : Type} (o : Option α) (x : α) : o.getD (o.getD x) = o.getD x := by cases o <;> rfl
  have elim_twice {α β : Type} (o : Option α) (x : β) (f : α → β) : o.elim (o.elim x f) f = o.elim x f := by
    cases o <;> rfl
  simp only [Commit.apply, getD_twice, elim_twice, c.emitOnto_eq (c.emitOnto s.txStream)]

/-- No encoding command reads a general register it writes (10_state R20). -/
theorem notMem_writesOf_of_mem_readsOf {i : Instr} (h : isEncoding i = true) : ∀ r ∈ readsOf i, r ∉ writesOf i := by
  cases i with
  | pllenc _ | msenc _ _ _ _ | setfp _ _ _ _ | setfd _ _ _ _ => simp [readsOf, writesOf]
  | _ => cases h

/-- An encoding command finds its operands as it left them. -/
theorem completionOf_replay {i : Instr} {s t : State} (hi : isEncoding i = true) (h : exec i s = .next t) :
    completionOf i t = completionOf i s := by
  refine completionOf_congr (fun r hr => ?_) (effect_of_exec h).chip_eq
  rw [run_of_exec h]
  exact Completion.run_getG (completionOf_fits i s) s (notMem_writesOf_of_mem_readsOf hi r hr)

/-- An encoding command without a fault commits. -/
theorem completionOf_eq_commit {i : Instr} {s : State} (h : isEncoding i = true)
    (hf : ((completionOf i s).run s).fault = false) : ∃ c, completionOf i s = .commit c := by
  have hk := completionOf_fits i s
  cases hc : completionOf i s with rw [hc] at hk hf
  | commit c => exact ⟨c, rfl⟩
  | raise f => nomatch hf
  | clearFault => cases hk; nomatch h
  | resetRade => cases hk; nomatch h

end Sys2Proof.Machine

open Sys2Proof.Machine

/-- Settles O48: an encoding command reads nothing it writes, so it commits the same again; the fraction APPROX leaves is
within its bound, so it passes through. -/
theorem replayIsIdempotent : Obligations.ReplayIsIdempotent := by
  refine ⟨fun i s t hi h hf => ?_, fun s t h hf => ?_⟩
  · have hrun := run_of_exec h
    obtain ⟨c, hc⟩ := completionOf_eq_commit hi (hrun ▸ hf)
    rw [exec_eq_run, completionOf_replay hi h, hrun, hc]
    exact ⟨c.emitOnto [], c.emitOnto_eq s.txStream, congrArg _ (c.apply_apply s)⟩
  · rcases exec_approx_cases s with ⟨_, _, he⟩ | ⟨r, hr, he⟩ <;> rw [he] at h <;> cases h
    · nomatch hf
    · exact exec_approx_of_ok (s := ((s.putFrac r).setFlags (approxFlags r)).complete) (approx_of_approx hr)
end

section
/-! PROOF. The host's accesses, one rule each, and a register write without WAIT (20_memory R61 to R63, R71). -/

namespace Sys2Proof.Machine

/-! Host writes (20_memory R62). -/

/-- The indices above 7 hold no general register (10_state R20). -/
theorem gregAt_eq_none_iff {i : RegIndex} : gregAt i = none ↔ 7 < i.toNat := by
  revert i
  decide

theorem gregAt_eq_some_iff {i : RegIndex} {r : GReg} : gregAt i = some r ↔ r.index = i := by
  cases r <;> revert i <;> decide

theorem GReg.index_inj {r r' : GReg} : r.index = r'.index ↔ r = r' := by
  rw [← gregAt_eq_some_iff, gregAt_index, Option.some_inj, eq_comm]

/-- After a write to one general register each general register reads by its index. -/
theorem State.getG_setG_of_index (s : State) {i : RegIndex} {r : GReg} (h : r.index = i) (v : Word) (r' : GReg) :
    (s.setG r v).getG r' = if r'.index = i then v else s.getG r' := by
  simp only [← h, GReg.index_inj]
  split
  · subst_vars
    exact s.getG_setG_same _ v
  · exact s.getG_setG_ne ‹_› v

/-- A register write while BUSY is dropped. -/
theorem State.hostWrite_of_run {s : State} {i : RegIndex} (hp : s.phase = .run) (hi : i ≠ 8) (v : Word) :
    s.hostWrite i v = s := by
  rcases s.hostWrite_cases i v with ⟨h, _⟩ | ⟨_, hidle, _⟩ | ⟨_, _, h⟩
  · exact absurd h hi
  · exact nomatch hp.symm.trans hidle
  · exact h

/-- A register write while IDLE is done. -/
theorem State.hostWrite_index_of_idle {s : State} (hp : s.phase = .idle) (r : GReg) (v : Word) :
    s.hostWrite r.index v = s.setG r v := by
  have h8 : r.index ≠ 8 := by cases r <;> decide
  rw [State.hostWrite, if_neg h8, gregAt_index]
  exact if_pos hp

/-- A command other than RESET is issued by an idle RADE without a fault (30_encoding R82). -/
theorem State.hostWrite_cmd_of_idle {s : State} (hp : s.phase = .idle) (hf : s.fault = false) {w : Word}
    (hw : opField w ≠ 0xF) : s.hostWrite 8 w = s.issue w := by
  rcases s.writeCmd_cases w with ⟨h, _⟩ | ⟨_, hrun | ⟨hfault, _⟩, _⟩ | ⟨_, _, _, h⟩
  · exact absurd h hw
  · exact nomatch hp.symm.trans hrun
  · exact nomatch hf.symm.trans hfault
  · exact h

/-! Host reads (20_memory R61, R63). -/

theorem step_of_hostRead {s : State} {i : RegIndex} {es : List Event} (h : s.events = .hostRead i :: es) :
    step s = .next ((s.withEvents es).hostRead i) := by
  simp [step, stepWith, h]

theorem State.readIsDraw_iff (s : State) (i : RegIndex) :
    s.readIsDraw i = true ↔ s.phase = .run ∧ (i.toNat ≤ 7 ∨ 10 ≤ i.toNat ∧ i.toNat ≤ 22) := by
  simp [State.readIsDraw, workingIndex]

/-- A read that is no draw returns the register. -/
theorem State.readValue_eq_regWord {s : State} {i : RegIndex}
    (h : ¬(s.phase = .run ∧ (i.toNat ≤ 7 ∨ 10 ≤ i.toNat ∧ i.toNat ≤ 22))) : s.readValue i = s.regWord i :=
  if_neg (mt (s.readIsDraw_iff i).mp h)

/-! A register write without WAIT (95_test_vectors, program P6). -/

/-- A run goes on from the state its first step leaves. -/
theorem run_of_step {s t : State} (n : Nat) (h : step s = .next t) :
    Sys2Proof.core.run (n + 1) s = Sys2Proof.core.run n t :=
  run_succ_of_next (M := Sys2Proof.core) h

/-- The completion of APPROX on 2000000/10000000 leaves 1/5, an idle RADE and the rest of the schedule. -/
theorem step_approx_of_one_fifth {s : State} {es : List Event} (h : s.events = .engine :: es) (hp : s.phase = .run)
    (hcmd : s.cmdLatch = 1) (hnum : s.num = 2000000) (hden : s.den = 10000000) (hmax : s.maxden = 1048575) :
    ∃ t, step s = .next t ∧ t.num = 1 ∧ t.den = 5 ∧ t.phase = .idle ∧ t.events = es := by
  have hdecode : decode s.cmdLatch = .ok .approx := by rw [hcmd]; decide
  have happrox : approx s.num.toNat s.den.toNat s.maxden.toNat = .ok ⟨1, 5, true, false⟩ := by
    rw [hnum, hden, hmax]
    decide
  have hturn := engineTurn_of_decode (s := s.withEvents es) hp hdecode
  have hexec := exec_approx_of_ok (s := s.withEvents es) happrox
  exact ⟨_, (step_of_engine h).trans (hturn.trans hexec), rfl, rfl, rfl, rfl⟩

end Sys2Proof.Machine

open Sys2Proof.Machine

/-- Settles O9, by what a host write can do: it sets the register at its index, or nothing. -/
theorem hostWriteChangesOneRegister : Obligations.HostWriteChangesOneRegister := by
  intro s i v es h hi
  refine ⟨_, step_of_hostWrite h, ?_⟩
  rcases (s.withEvents es).hostWrite_cases i v with ⟨h8, _⟩ | ⟨_, hidle, r, hr, hwrite⟩ | ⟨_, hno, hwrite⟩
  · exact absurd h8 hi
  · rw [hwrite]
    have hindex : r.index = i := gregAt_eq_some_iff.mp hr
    have hle : i.toNat ≤ 7 := not_lt.mp fun hlt => nomatch hr.symm.trans (gregAt_eq_none_iff.mpr hlt)
    exact ⟨fun _ _ => ⟨(s.withEvents es).getG_setG_of_index hindex v, (s.withEvents es).setG_frame r v⟩,
      fun hout => absurd ⟨hle, hidle⟩ hout⟩
  · rw [hwrite]
    refine ⟨fun hle hidle => ?_, fun _ => rfl⟩
    rcases hno with hrun | hnone
    · exact nomatch hrun.symm.trans hidle
    · exact absurd hle (gregAt_eq_none_iff.mp hnone).not_ge

/-- Settles O10: a read is a draw exactly on a working index while BUSY, and returns the register otherwise. -/
theorem hostReadReturnsRegister : Obligations.HostReadReturnsRegister := by
  intro s i es h
  refine ⟨s.readValue i, _, step_of_hostRead h, ?_, ?_, ?_, ?_⟩
  · rintro rfl
    rw [State.readValue_eq_regWord (by simp)]
    exact BitVec.setWidth_eq s.statusWord
  · intro hi
    have hout : ¬(i.toNat ≤ 7 ∨ 10 ≤ i.toNat ∧ i.toNat ≤ 22) := by
      rcases hi with rfl | hi
      · decide
      · omega
    rw [State.readValue_eq_regWord fun ⟨_, hindex⟩ => hout hindex]
    rcases hi with rfl | hi
    · rfl
    · exact s.regWord_of_unused hi
  · intro hidle
    exact State.readValue_eq_regWord fun ⟨hrun, _⟩ => nomatch hrun.symm.trans hidle
  · exact if_congr (s.readIsDraw_iff i) rfl rfl

/-- Settles O60: before the completion RADE is BUSY and drops the write, after it RADE is idle and does it. -/
theorem unwaitedWriteHasTwoOutcomes : Obligations.UnwaitedWriteHasTwoOutcomes := by
  intro s hidle hfault hnum hden hmax
  have issue (es : List Event) : Sys2Proof.core.run 3 { s with events := .hostWrite 8 1 :: es } =
      Sys2Proof.core.run 2 ((s.withEvents es).issue 1) := by
    rw [run_of_step 2 (step_of_hostWrite rfl)]
    exact congrArg _ (State.hostWrite_cmd_of_idle (s := s.withEvents es) hidle hfault (by decide))
  constructor
  · obtain ⟨t, ht, htnum, htden, -⟩ :=
      step_approx_of_one_fifth (s := (s.withEvents [.engine]).issue 1) rfl rfl rfl hnum hden hmax
    refine ⟨t, ?_, htnum, htden⟩
    rw [issue, run_of_step 1 (step_of_hostWrite rfl), State.hostWrite_of_run rfl (by decide)]
    exact run_of_step _ ht
  · obtain ⟨t, ht, -, htden, htidle, hevents⟩ :=
      step_approx_of_one_fifth (s := (s.withEvents [.engine, .hostWrite 0 5]).issue 1) rfl rfl rfl hnum hden hmax
    refine ⟨(t.withEvents []).setG .num 5, ?_, rfl, htden⟩
    rw [issue, run_of_step _ ht, run_of_step 0 (step_of_hostWrite hevents)]
    exact congrArg _ (State.hostWrite_index_of_idle (s := t.withEvents []) htidle .num 5)
end

section
/-! PROOF. A command word and its fields: read, built and masked (30_encoding R80, R81). -/

namespace Sys2Proof

/-! The fields of a word, and the words built from fields. -/

/-- OP in arithmetic on the word. -/
theorem opField_eq_iff {w : BitVec 32} {op : BitVec 4} : opField w = op ↔ w.toNat % 16 = op.toNat := by
  rw [← opField_toNat, BitVec.toNat_inj]

/-- The reserved bits are 0 exactly when the word is below 2^12. -/
theorem reservedField_eq_zero_iff {w : BitVec 32} : reservedField w = 0 ↔ w.toNat / 4096 = 0 := by
  rw [← reservedField_toNat, ← BitVec.toNat_inj]
  rfl

theorem chField_eq_three_iff {w : BitVec 32} : chField w = 3 ↔ w.toNat / 32 % 4 = 3 := by
  rw [← chField_toNat, ← BitVec.toNat_inj]
  rfl

theorem chField_eq (w : BitVec 32) : chField w = BitVec.ofNat 2 (w.toNat / 32 % 4) := by
  rw [← chField_toNat, BitVec.ofNat_toNat, BitVec.setWidth_eq]

theorem rdivField_eq (w : BitVec 32) : rdivField w = BitVec.ofNat 3 (w.toNat / 128 % 8) := by
  rw [← rdivField_toNat, BitVec.ofNat_toNat, BitVec.setWidth_eq]

theorem drvField_eq (w : BitVec 32) : drvField w = BitVec.ofNat 2 (w.toNat / 1024 % 4) := by
  rw [← drvField_toNat, BitVec.ofNat_toNat, BitVec.setWidth_eq]

/-- The bit of the field PLL is the word's bit 4. -/
theorem pllField_bit_toNat (w : BitVec 32) : (pllField w).bit.toNat = w.toNat / 16 % 2 := by
  rw [pllField_eq]
  split
  · simp [PllSel.bit, *]
  · simp [PllSel.bit]
    omega

@[simp] theorem pllField_formatC (op : BitVec 4) (pll : PllSel) (ch : BitVec 2) (rdiv : BitVec 3) (drv : BitVec 2) :
    pllField (formatC op pll.bit ch rdiv drv) = pll := by
  have hword : (formatC op pll.bit ch rdiv drv).toNat / 16 % 2 = pll.bit.toNat := by
    rw [formatC_toNat]
    omega
  rw [pllField_eq, hword]
  cases pll <;> rfl

@[simp] theorem chField_formatC (op : BitVec 4) (pll : BitVec 1) (ch : BitVec 2) (rdiv : BitVec 3) (drv : BitVec 2) :
    chField (formatC op pll ch rdiv drv) = ch := by
  apply BitVec.eq_of_toNat_eq
  rw [chField_toNat, formatC_toNat]
  omega

@[simp] theorem rdivField_formatC (op : BitVec 4) (pll : BitVec 1) (ch : BitVec 2) (rdiv : BitVec 3) (drv : BitVec 2) :
    rdivField (formatC op pll ch rdiv drv) = rdiv := by
  apply BitVec.eq_of_toNat_eq
  rw [rdivField_toNat, formatC_toNat]
  omega

@[simp] theorem drvField_formatC (op : BitVec 4) (pll : BitVec 1) (ch : BitVec 2) (rdiv : BitVec 3) (drv : BitVec 2) :
    drvField (formatC op pll ch rdiv drv) = drv := by
  apply BitVec.eq_of_toNat_eq
  rw [drvField_toNat, formatC_toNat]
  omega

/-- The six fields side by side (30_encoding R80); `formatC` is the case of reserved bits 0. -/
def wordOfFields (res : BitVec 20) (drv : BitVec 2) (rdiv : BitVec 3) (ch : BitVec 2) (pll : BitVec 1) (op : BitVec 4) :
    BitVec 32 :=
  res ++ drv ++ rdiv ++ ch ++ pll ++ op

/-- A word is its fields. -/
theorem wordOfFields_fields (w : BitVec 32) :
    wordOfFields (reservedField w) (drvField w) (rdivField w) (chField w) (pllField w).bit (opField w) = w := by
  apply BitVec.eq_of_toNat_eq
  simp only [wordOfFields, append_toNat, reservedField_toNat, drvField_toNat, rdivField_toNat, chField_toNat,
    pllField_bit_toNat, opField_toNat]
  omega

/-- Masking a word masks its fields. -/
theorem and_wordOfFields (w : BitVec 32) (res : BitVec 20) (drv : BitVec 2) (rdiv : BitVec 3) (ch : BitVec 2)
    (pll : BitVec 1) (op : BitVec 4) :
    w &&& wordOfFields res drv rdiv ch pll op =
      wordOfFields (reservedField w &&& res) (drvField w &&& drv) (rdivField w &&& rdiv) (chField w &&& ch)
        ((pllField w).bit &&& pll) (opField w &&& op) := by
  conv_lhs => rw [← wordOfFields_fields w]
  have append_and (res' : BitVec 20) (drv' : BitVec 2) (rdiv' : BitVec 3) (ch' : BitVec 2) (pll' : BitVec 1)
      (op' : BitVec 4) : (res' ++ drv' ++ rdiv' ++ ch' ++ pll' ++ op') &&& (res ++ drv ++ rdiv ++ ch ++ pll ++ op) =
        (res' &&& res) ++ (drv' &&& drv) ++ (rdiv' &&& rdiv) ++ (ch' &&& ch) ++ (pll' &&& pll) ++ (op' &&& op) := by
    simp only [BitVec.and_append]
  exact append_and ..

/-! The four masks of `usedMask`, each all ones in the fields it keeps and 0 in the others. -/

/-- OP alone. -/
theorem and_opMask (w : BitVec 32) : w &&& 0x0000000F = formatC (opField w) 0 0 0 0 := by
  have h := and_wordOfFields w 0#20 0#2 0#3 0#2 0#1 (BitVec.allOnes 4)
  simp only [BitVec.and_zero, BitVec.and_allOnes] at h
  exact h

/-- OP and the reserved bits, which are 0. -/
theorem and_cleanMask {w : BitVec 32} (hres : reservedField w = 0) :
    w &&& 0xFFFFF00F = formatC (opField w) 0 0 0 0 := by
  have h := and_wordOfFields w (BitVec.allOnes 20) 0#2 0#3 0#2 0#1 (BitVec.allOnes 4)
  simp only [BitVec.and_zero, BitVec.and_allOnes, hres] at h
  exact h

/-- OP, PLL and the reserved bits, which are 0. -/
theorem and_pllMask {w : BitVec 32} (hres : reservedField w = 0) :
    w &&& 0xFFFFF01F = formatC (opField w) (pllField w).bit 0 0 0 := by
  have h := and_wordOfFields w (BitVec.allOnes 20) 0#2 0#3 0#2 (BitVec.allOnes 1) (BitVec.allOnes 4)
  simp only [BitVec.and_zero, BitVec.and_allOnes, hres] at h
  exact h

/-- Every field, the reserved bits being 0. -/
theorem and_fullMask {w : BitVec 32} (hres : reservedField w = 0) :
    w &&& 0xFFFFFFFF = formatC (opField w) (pllField w).bit (chField w) (rdivField w) (drvField w) := by
  have h := wordOfFields_fields w
  rw [hres] at h
  exact BitVec.and_allOnes.trans h.symm

end Sys2Proof
end

section
/-! PROOF. The command a word names, and the decoder and the encoder by it (30_encoding R81, R83, R84, R87). -/

namespace Sys2Proof

open Laws.EncodeShape (opcode formatC_shape)

/-- The command of the same opcode with the fields it uses read from the word (30_encoding R81). -/
def Instr.withFieldsOf (w : BitVec 32) : Instr → Instr
  | .pllenc _ => .pllenc (pllField w)
  | .msenc _ _ _ _ => .msenc (pllField w) (chField w) (rdivField w) (drvField w)
  | .setfp _ _ _ _ => .setfp (pllField w) (chField w) (rdivField w) (drvField w)
  | .setfd _ _ _ _ => .setfd (pllField w) (chField w) (rdivField w) (drvField w)
  | i => i

/-- Word w names command i, be it legal or not: its OP is the command's opcode, and its fields are the command's. -/
structure Instr.NamedBy (i : Instr) (w : BitVec 32) : Prop where
  op : opField w = opcode i
  fields : i.withFieldsOf w = i

/-- One command of each opcode. -/
def oneOfEachOpcode : List Instr :=
  [.nop, .approx, .pllenc .a, .msenc .a 0 0 0, .ratfp, .ratfd, .setfp .a 0 0 0, .setfd .a 0 0 0, .reserved8, .reserved9,
    .reservedA, .reservedB, .reservedC, .reservedD, .clrf, .reset]

theorem mem_map_opcode : ∀ op : BitVec 4, op ∈ oneOfEachOpcode.map opcode := by decide

theorem Instr.opcode_withFieldsOf (w : BitVec 32) (i : Instr) : opcode (i.withFieldsOf w) = opcode i := by
  cases i <;> rfl

theorem Instr.withFieldsOf_idem (w : BitVec 32) (i : Instr) : (i.withFieldsOf w).withFieldsOf w = i.withFieldsOf w := by
  cases i <;> rfl

/-- Every word names a command (30_encoding R83). -/
theorem exists_namedBy (w : BitVec 32) : ∃ i : Instr, i.NamedBy w := by
  obtain ⟨i, -, hi⟩ := List.mem_map.mp (mem_map_opcode (opField w))
  exact ⟨i.withFieldsOf w, hi.symm.trans (i.opcode_withFieldsOf w).symm, i.withFieldsOf_idem w⟩

/-- The decoder, said once: the command a word names, unless a reserved bit is set where it must not be, or the command
is ill-formed (30_encoding R81, R83, R84). -/
theorem Instr.NamedBy.decode_eq {i : Instr} {w : BitVec 32} (h : i.NamedBy w) :
    decode w =
      if (opcode i).toNat < 8 ∧ reservedField w ≠ 0 then .error .reservedBits
      else if i.WellFormed then .ok i
      else .error .illegalChannel := by
  obtain ⟨hop, hfields⟩ := h
  rw [decode, hop]
  cases i with
  | msenc _ _ _ _ | setfp _ _ _ _ | setfd _ _ _ _ =>
    cases hfields
    simp [opcode, decodeChannel, Instr.WellFormed, Instr.wellFormed]
  | _ =>
    cases hfields
    simp [opcode, decodeClean, Instr.WellFormed, Instr.wellFormed]

/-- A well-formed command is decoded from a word that names it with reserved bits 0. -/
theorem Instr.NamedBy.decode_eq_ok {i : Instr} {w : BitVec 32} (h : i.NamedBy w) (hres : reservedField w = 0)
    (hwf : i.WellFormed) : decode w = .ok i := by
  rw [h.decode_eq, if_neg fun hset => hset.2 hres, if_pos hwf]

/-- What a successful decoding tells: the command is the one the word names, it is well formed, and the reserved bits
are 0 where they must be. -/
theorem namedBy_of_decode {w : BitVec 32} {i : Instr} (h : decode w = .ok i) :
    i.NamedBy w ∧ i.WellFormed ∧ ((opcode i).toNat < 8 → reservedField w = 0) := by
  obtain ⟨j, hj⟩ := exists_namedBy w
  rw [hj.decode_eq] at h
  split at h
  · cases h
  · rename_i hres
    split at h <;> cases h
    exact ⟨hj, ‹_›, fun hop => by_contra fun hset => hres ⟨hop, hset⟩⟩

/-- Words that name one command and have the same reserved bits decode alike. -/
theorem Instr.NamedBy.decode_congr {i : Instr} {w w' : BitVec 32} (h : i.NamedBy w) (h' : i.NamedBy w')
    (hres : reservedField w = reservedField w') : decode w = decode w' := by
  rw [h.decode_eq, h'.decode_eq, hres]

/-- The commands that use no field are the same for every word. -/
theorem Instr.withFieldsOf_of_fieldless {i : Instr} (h : (opcode i).toNat ∈ [0, 1, 4, 5, 14, 15]) (w : BitVec 32) :
    i.withFieldsOf w = i := by
  cases i with
  | pllenc _ | msenc _ _ _ _ | setfp _ _ _ _ | setfd _ _ _ _ => simp [opcode] at h
  | _ => rfl

/-- The encoder writes a word of its command's shape (30_encoding R87). -/
theorem encodeShape (i : Instr) : Laws.EncodeShape.Statement i := by
  cases i <;> exact formatC_shape ..

/-- The fields the encoder writes are the command's. -/
theorem Instr.withFieldsOf_encode (i : Instr) : i.withFieldsOf (encode i) = i := by
  cases i with
  | pllenc pll => simp only [withFieldsOf, encode, pllField_formatC]
  | msenc _ _ _ _ | setfp _ _ _ _ | setfd _ _ _ _ =>
    simp only [withFieldsOf, encode, pllField_formatC, chField_formatC, rdivField_formatC, drvField_formatC]
  | _ => rfl

/-- The encoder gives back the bits of the word that the decoding looks at, and 0 elsewhere. -/
theorem Instr.NamedBy.encode_eq {i : Instr} {w : BitVec 32} (h : i.NamedBy w)
    (hres : (opcode i).toNat < 8 → reservedField w = 0) : encode i = w &&& usedMask i := by
  obtain ⟨hop, hfields⟩ := h
  cases i with
  | nop | approx | ratfp | ratfd =>
    rw [usedMask, and_cleanMask (hres (by decide)), hop]
    rfl
  | pllenc _ =>
    cases hfields
    rw [usedMask, and_pllMask (hres (by simp [opcode])), hop]
    rfl
  | msenc _ _ _ _ | setfp _ _ _ _ | setfd _ _ _ _ =>
    cases hfields
    rw [usedMask, and_fullMask (hres (by simp [opcode])), hop]
    rfl
  | _ =>
    rw [usedMask, and_opMask, hop]
    rfl

end Sys2Proof

open Sys2Proof

/-- Settles O1: the encoded word names its command, and its reserved bits are 0. -/
theorem encodedCommandDecodesBack : Obligations.EncodedCommandDecodesBack := by
  intro i hwf
  obtain ⟨hop, hres⟩ := encodeShape i
  exact Instr.NamedBy.decode_eq_ok ⟨hop, i.withFieldsOf_encode⟩ hres hwf

/-- Settles O2: words with the same OP, used fields and reserved bits name the same command. -/
theorem unusedFieldsAreIgnored : Obligations.UnusedFieldsAreIgnored := by
  intro w w' hop hres
  have hop' : opField w = opField w' := by rw [opField_eq_iff, opField_toNat, hop]
  have hres' : reservedField w = reservedField w' := by
    rw [← BitVec.toNat_inj, reservedField_toNat, reservedField_toNat, hres]
  refine ⟨fun hmem => ?_, fun h2 hpll => ?_, fun h0 h2 => ?_, fun h0 hch => ?_⟩
  · obtain ⟨i, hi⟩ := exists_namedBy w
    have hfieldless : (Laws.EncodeShape.opcode i).toNat ∈ [0, 1, 4, 5, 14, 15] := by rwa [← hi.op, opField_toNat]
    exact hi.decode_congr ⟨hop' ▸ hi.op, i.withFieldsOf_of_fieldless hfieldless w'⟩ hres'
  · have hw : opField w = 2 := opField_eq_iff.mpr h2
    have hfield : pllField w = pllField w' := by rw [pllField_eq, pllField_eq, hpll]
    exact Instr.NamedBy.decode_congr (i := .pllenc (pllField w)) ⟨hw, rfl⟩
      ⟨hop' ▸ hw, congrArg Instr.pllenc hfield.symm⟩ hres'
  · rw [← pllField_eq]
    exact Instr.NamedBy.decode_eq_ok ⟨opField_eq_iff.mpr h2, rfl⟩ (reservedField_eq_zero_iff.mpr h0) rfl
  · have hwf : chField w ≠ 3 := mt chField_eq_three_iff.mp hch
    simp only [← pllField_eq, ← chField_eq, ← rdivField_eq, ← drvField_eq]
    refine ⟨fun h => ?_, fun h => ?_, fun h => ?_⟩ <;>
      exact Instr.NamedBy.decode_eq_ok ⟨opField_eq_iff.mpr h, rfl⟩ (reservedField_eq_zero_iff.mpr h0)
        (bne_iff_ne.mpr hwf)

/-- Settles O3: encoding gives the word masked to the bits its decoding looks at. -/
theorem decodedCommandEncodesBack : Obligations.DecodedCommandEncodesBack := by
  intro w i h
  obtain ⟨hnamed, hwf, hres⟩ := namedBy_of_decode h
  rw [hnamed.encode_eq hres, BitVec.and_assoc, BitVec.and_assoc, BitVec.and_self, BitVec.and_not_self]
  exact ⟨hwf, rfl, BitVec.and_zero⟩

/-- Settles O4: closed words, each decoded by evaluation. -/
theorem wordsOfTheSpecDecode : Obligations.WordsOfTheSpecDecode :=
  ⟨rfl, rfl, rfl, rfl, rfl, rfl, rfl, rfl, rfl, rfl, rfl, rfl, rfl, rfl⟩
end

section
/-! PROOF. A write to CMD, and the words and commands that take a fault at their completion (30_encoding R82, R84,
41_pllenc R129, 42_msenc R146). -/

namespace Sys2Proof.Machine

open Laws.EncodeShape (opcode)

/-! A write to CMD (30_encoding R82). -/

/-- The issue table, its opcodes in arithmetic on the word. -/
theorem State.writeCmd_eq (s : State) (w : BitVec 32) :
    s.writeCmd w =
      if w.toNat % 16 = 15 then s.resetRade
      else if s.phase = .run then s
      else if s.fault = true ∧ w.toNat % 16 ≠ 14 then s
      else s.issue w := by
  simp only [State.writeCmd, ne_eq, opField_eq_iff]
  rfl

/-! Illegal words (30_encoding R84). -/

/-- The commands of the reserved opcodes 0x8 to 0xD. -/
def reservedCommands : List Instr := [.reserved8, .reserved9, .reservedA, .reservedB, .reservedC, .reservedD]

theorem exec_of_mem_reservedCommands {i : Instr} (h : i ∈ reservedCommands) (s : State) :
    exec i s = .next (s.raise .illcmd) := by
  simp only [reservedCommands, List.mem_cons, List.not_mem_nil, or_false] at h
  rcases h with rfl | rfl | rfl | rfl | rfl | rfl <;> rfl

/-- A word is illegal when the command it names is reserved or ill-formed, or a reserved bit is set where it must not be
(30_encoding R84). -/
theorem illegalWord_iff {i : Instr} {w : BitVec 32} (h : i.NamedBy w) :
    Claims.illegalWord w.toNat ↔
      i ∈ reservedCommands ∨ ((opcode i).toNat < 8 ∧ reservedField w ≠ 0) ∨ ¬i.WellFormed := by
  obtain ⟨hop, hfields⟩ := h
  rw [Claims.illegalWord, ← opField_toNat, hop, ne_eq, ← reservedField_eq_zero_iff, ← chField_eq_three_iff]
  cases i with
  | msenc _ _ _ _ | setfp _ _ _ _ | setfd _ _ _ _ =>
    cases hfields
    simp [opcode, reservedCommands, Instr.WellFormed, Instr.wellFormed]
  | _ => simp [opcode, reservedCommands, Instr.WellFormed, Instr.wellFormed]

/-- A legal word decodes to a command that is not reserved. -/
theorem decode_of_legal {w : BitVec 32} (h : ¬Claims.illegalWord w.toNat) :
    ∃ i, decode w = .ok i ∧ i ∉ reservedCommands := by
  obtain ⟨i, hi⟩ := exists_namedBy w
  rw [illegalWord_iff hi, not_or, not_or, not_not] at h
  obtain ⟨hreserved, hbits, hwf⟩ := h
  exact ⟨i, by rw [hi.decode_eq, if_neg hbits, if_pos hwf], hreserved⟩

/-- An illegal word is rejected, or decodes to a reserved command. -/
theorem decode_of_illegal {w : BitVec 32} (h : Claims.illegalWord w.toNat) :
    (∃ e, decode w = .error e) ∨ ∃ i ∈ reservedCommands, decode w = .ok i := by
  cases hd : decode w with
  | error e => exact .inl ⟨e, rfl⟩
  | ok i =>
    obtain ⟨hi, hwf, hres⟩ := namedBy_of_decode hd
    rcases (illegalWord_iff hi).mp h with hreserved | ⟨hop, hset⟩ | hill
    · exact .inr ⟨i, hreserved, rfl⟩
    · exact absurd (hres hop) hset
    · exact absurd hwf hill

/-- The engine's turn while BUSY with a word in the latch that is no command (30_encoding R84). -/
theorem engineTurn_of_decode_error {s : State} {e : DecodeError} (hp : s.phase = .run)
    (he : decode s.cmdLatch = .error e) : engineTurn s = .next (s.raise .illcmd) := by
  simp [engineTurn, engineTurnWith, State.latchedCommand, hp, he]

theorem engineTurn_of_illegal {s : State} (hp : s.phase = .run) (h : Claims.illegalWord s.cmdLatch.toNat) :
    engineTurn s = .next (s.raise .illcmd) := by
  rcases decode_of_illegal h with ⟨e, he⟩ | ⟨i, hreserved, hi⟩
  · exact engineTurn_of_decode_error hp he
  · exact (engineTurn_of_decode hp hi).trans (exec_of_mem_reservedCommands hreserved s)

/-! The encoders' faults. -/

/-- A fraction with denominator 0 has no fields (41_pllenc R129). -/
theorem fields_of_den_zero {num : Nat} (h : num ≠ 0) (ip : Nat) : fields ip num 0 = .error .divzero := by
  simp [fields, h]

theorem exec_pllenc_of_error {pll : PllSel} {s : State} {f : Cause}
    (h : encodePll s.chip pll s.mult.toNat s.num.toNat s.den.toNat = .error f) :
    exec (.pllenc pll) s = .next (s.raise f) := by
  simp [exec, execPllenc, h]

theorem exec_msenc_of_error {pll : PllSel} {ch : BitVec 2} {rdiv : BitVec 3} {drv : BitVec 2} {c : Channel} {s : State}
    {f : Cause} (hc : channelOf ch = some c)
    (h : encodeMs s.chip pll c rdiv drv s.div.toNat s.num.toNat s.den.toNat = .error f) :
    exec (.msenc pll ch rdiv drv) s = .next (s.raise f) := by
  simp [exec, execMsenc, hc, h]

/-- Every CH code but 3 names a channel (30_encoding R80). -/
theorem ne_three_iff_exists_channelOf (ch : BitVec 2) : ch ≠ 3 ↔ ∃ c, channelOf ch = some c := by
  rw [← Option.ne_none_iff_exists', ne_eq, ne_eq, channelOf_eq_none_iff]

end Sys2Proof.Machine

open Sys2Proof Sys2Proof.Machine

/-- Settles O5: the engine's turn on an illegal word, and what the legal ones decode to. -/
theorem illegalWordRaisesIllcmd : Obligations.IllegalWordRaisesIllcmd := by
  intro s es hp h
  refine ⟨fun hill => ?_, fun hop => ?_, fun hop => ?_, decode_of_legal⟩
  · exact (step_of_engine h).trans (engineTurn_of_illegal (s := s.withEvents es) hp hill)
  · exact decode_of_opField_clrf (opField_eq_iff.mpr hop)
  · exact Instr.NamedBy.decode_eq (i := .reset) ⟨opField_eq_iff.mpr hop, rfl⟩

/-- Settles O8: a host write to index 8 is a write to CMD, and its issue table is the statement's. -/
theorem commandIssueTable : Obligations.CommandIssueTable :=
  fun s w es h => (step_of_hostWrite h).trans (congrArg _ ((s.withEvents es).writeCmd_eq w))

/-- Settles O34: DEN = 0 leaves the encoders without fields, and CH = 3 names no channel. -/
theorem encoderFaults : Obligations.EncoderFaults := by
  intro s pll ch rdiv drv
  refine ⟨fun hnum hden => ?_, fun hch hdiv hnum hden => ?_, rfl, rfl, rfl, ne_three_iff_exists_channelOf ch⟩
  · have hfields : fields s.mult.toNat s.num.toNat s.den.toNat = .error .divzero := by
      rw [hden]
      exact fields_of_den_zero (BitVec.toNat_inj.not.mpr hnum) _
    exact exec_pllenc_of_error (encodePll_of_fields_error _ _ hfields)
  · obtain ⟨c, hc⟩ := (ne_three_iff_exists_channelOf ch).mp hch
    have hfields : msFields s.div.toNat s.num.toNat s.den.toNat = .error .divzero := by
      rw [msFields_of_ne (BitVec.toNat_inj.not.mpr hdiv), hden]
      exact fields_of_den_zero (BitVec.toNat_inj.not.mpr hnum) _
    exact exec_msenc_of_error hc (encodeMs_of_fields_error _ _ _ _ _ hfields)

/-- Settles O42: each reserved command is the ILLCMD fault. -/
theorem reservedOpcodesRaiseIllcmd : Obligations.ReservedOpcodesRaiseIllcmd :=
  fun s _ hi => exec_of_mem_reservedCommands hi s
end

section
/-! PROOF. `approx`: its pass-through and its loop, whose convergents are those of the continued fraction, in lowest terms
and growing with the Fibonacci numbers (40_approx R100 to R110). -/

namespace Sys2Proof.Machine

open Claims (quotients continuedFraction)

/-! What `approx` answers (40_approx R101, R105). -/

theorem approx_of_lt {n d m : Nat} (hm : 1 ≤ m) (h : m < d) :
    approx n d m = .ok (approxLoop m (d + 1) (convStart n d)) := by
  simp [approx, Nat.ne_zero_of_lt h, Nat.not_le.mpr h, Nat.ne_zero_of_lt hm]

theorem approx_exists_ok (n : Nat) {d m : Nat} (hd : d ≠ 0) (hm : m ≠ 0) : ∃ r, approx n d m = .ok r := by
  rcases le_or_gt d m with h | h
  · exact ⟨_, approx_of_le hd h⟩
  · exact ⟨_, approx_of_lt (Nat.one_le_iff_ne_zero.mpr hm) h⟩

/-- The loop's induction on a result of `approx`: a property of the start that every advance keeps holds of the state the
loop stopped in. -/
theorem approx_stops {P : ConvState → Prop} {n d m : Nat} {r : ApproxResult} (h : m < d)
    (hr : approx n d m = .ok r) (start : P (convStart n d))
    (keeps : ∀ c, P c → c.d ≠ 0 → P c.advance) :
    ∃ e, P e ∧ ((e.d = 0 ∧ r = ⟨e.p1, e.q1, true, false⟩) ∨
      (e.d ≠ 0 ∧ m < e.q2 ∧ r = ⟨e.p1, e.q1, true, true⟩)) := by
  have hm : 1 ≤ m := by
    obtain ⟨-, hpos, hle⟩ := approx_bounds hr
    exact hpos.trans hle
  rw [approx_of_lt hm h, Except.ok.injEq] at hr
  subst hr
  exact approxLoop_stops (fun c hc hd _ => keeps c hc hd) (d + 1) _ start (Nat.lt_succ_self d)

/-- APX says that the loop ran (40_approx R104). -/
theorem approx_apx_iff {n d m : Nat} {r : ApproxResult} (hr : approx n d m = .ok r) : r.apx = true ↔ m < d := by
  rcases le_or_gt d m with h | h
  · have hd : d ≠ 0 := by
      rintro rfl
      simp [approx] at hr
    rw [approx_of_le hd h] at hr
    cases hr
    simp [h]
  · obtain ⟨e, -, ⟨-, rfl⟩ | ⟨-, -, rfl⟩⟩ := approx_stops (P := fun _ => True) h hr trivial fun _ _ _ => trivial
    all_goals simp [h]

theorem approx_den_of_le {n d m : Nat} {r : ApproxResult} (hd : d ≠ 0) (h : d ≤ m) (hr : approx n d m = .ok r) :
    r.den = d := by
  rw [approx_of_le hd h] at hr
  cases hr
  rfl

/-- The first iteration always advances: its q2 is 1 (40_approx R105). -/
theorem approxLoop_convStart {m : Nat} (n : Nat) {d : Nat} (fuel : Nat) (hd : d ≠ 0) (hm : 1 ≤ m) :
    approxLoop m (fuel + 1) (convStart n d) = approxLoop m fuel (convStart n d).advance :=
  approxLoop_advance hd (by simpa [ConvState.q2] using hm)

/-! Lowest terms and value (40_approx R107). -/

/-- p1*q0 - p0*q1, which is 1 or -1 all along the loop. -/
def ConvState.det (c : ConvState) : ℤ := c.p1 * c.q0 - c.p0 * c.q1

theorem ConvState.advance_det (c : ConvState) : c.advance.det = -c.det := by
  simp only [det, advance_p0, advance_q0, advance_p1, advance_q1, p2, q2]
  push_cast
  ring

/-- The convergent's denominators keep making d0, as its numerators make n0. -/
theorem ConvState.advance_denominator (c : ConvState) :
    c.advance.q1 * c.advance.n + c.advance.q0 * c.advance.d = c.q1 * c.n + c.q0 * c.d := by
  simp only [advance_q1, advance_n, advance_q0, advance_d, q2, quot]
  calc (c.q0 + c.n / c.d * c.q1) * c.d + c.q1 * (c.n % c.d)
      = c.q1 * (c.d * (c.n / c.d) + c.n % c.d) + c.q0 * c.d := by ring
    _ = c.q1 * c.n + c.q0 * c.d := by rw [Nat.div_add_mod]

/-- The loop of `approx` on n0/d0: the last two convergents with the remainders make n0 and d0, the convergents are
neighbours, and the remainders keep the greatest common divisor. -/
structure ConvState.Expands (n0 d0 : Nat) (c : ConvState) : Prop where
  numerator : c.p1 * c.n + c.p0 * c.d = n0
  denominator : c.q1 * c.n + c.q0 * c.d = d0
  unit : IsUnit c.det
  gcd : Nat.gcd c.n c.d = Nat.gcd n0 d0

theorem convStart_expands (n d : Nat) : (convStart n d).Expands n d where
  numerator := by simp
  denominator := by simp
  unit := by simp [ConvState.det]
  gcd := rfl

namespace ConvState.Expands

variable {n0 d0 : Nat} {c : ConvState}

theorem advance (h : c.Expands n0 d0) : c.advance.Expands n0 d0 where
  numerator := c.advance_numerator.trans h.numerator
  denominator := c.advance_denominator.trans h.denominator
  unit := c.advance_det ▸ h.unit.neg
  gcd := by
    rw [advance_n, advance_d, ← h.gcd, Nat.gcd_comm c.d, ← Nat.gcd_rec, Nat.gcd_comm]

/-- The determinant makes 1 of p1 and q1. -/
theorem coprime (h : c.Expands n0 d0) : Nat.Coprime c.p1 c.q1 := by
  rw [← Nat.isCoprime_iff_coprime]
  refine ⟨c.det * c.q0, -c.det * c.p0, ?_⟩
  calc c.det * c.q0 * c.p1 + -c.det * c.p0 * c.q1 = c.det * c.det := by rw [det]; ring
    _ = 1 := Int.isUnit_mul_self h.unit

/-- With no remainder left the divisor is n, so the convergent is n0/d0 reduced. -/
theorem eq_reduced (h : c.Expands n0 d0) (hd : c.d = 0) (hd0 : d0 ≠ 0) :
    c.p1 = n0 / Nat.gcd n0 d0 ∧ c.q1 = d0 / Nat.gcd n0 d0 := by
  have hpos : 0 < Nat.gcd n0 d0 := Nat.gcd_pos_of_pos_right _ (Nat.pos_of_ne_zero hd0)
  have hgcd : c.n = Nat.gcd n0 d0 := by rw [← h.gcd, hd, Nat.gcd_zero_right]
  have hnum : c.p1 * Nat.gcd n0 d0 = n0 := by simpa [hd, hgcd] using h.numerator
  have hden : c.q1 * Nat.gcd n0 d0 = d0 := by simpa [hd, hgcd] using h.denominator
  exact ⟨(Nat.div_eq_of_eq_mul_left hpos hnum.symm).symm, (Nat.div_eq_of_eq_mul_left hpos hden.symm).symm⟩

/-- The convergent misses n0/d0 by the remainder, up to the sign. -/
theorem ne_value (h : c.Expands n0 d0) (hd : c.d ≠ 0) : c.p1 * d0 ≠ n0 * c.q1 := by
  have hdiff : (c.p1 * d0 - n0 * c.q1 : ℤ) = c.det * c.d := by
    rw [← h.numerator, ← h.denominator, det]
    push_cast
    ring
  have hne : c.det * c.d ≠ 0 := mul_ne_zero h.unit.ne_zero (Nat.cast_ne_zero.mpr hd)
  intro heq
  rw [← hdiff, sub_ne_zero] at hne
  exact hne (by exact_mod_cast heq)

/-- Every further convergent's denominator divides out of d0 with the divisor to spare (40_approx R107(d)). -/
theorem q2_le_reduced (h : c.Expands n0 d0) (hd : c.d ≠ 0) : c.q2 ≤ d0 / Nat.gcd n0 d0 := by
  have hgcd : Nat.gcd n0 d0 ≤ c.d := h.gcd ▸ Nat.gcd_le_right _ (Nat.pos_of_ne_zero hd)
  have hpos : 0 < Nat.gcd n0 d0 := h.gcd ▸ Nat.gcd_pos_of_pos_right _ (Nat.pos_of_ne_zero hd)
  rw [Nat.le_div_iff_mul_le hpos]
  calc c.q2 * Nat.gcd n0 d0 ≤ c.advance.q1 * c.advance.n := Nat.mul_le_mul_left _ hgcd
    _ ≤ d0 := h.advance.denominator ▸ Nat.le_add_right ..

end ConvState.Expands

/-! The continued fraction (40_approx R100, R103). -/

@[simp] theorem quotients_zero_right (fuel n : Nat) : quotients fuel n 0 = [] := by
  cases fuel <;> rfl

theorem quotients_succ {n d : Nat} (fuel : Nat) (hd : d ≠ 0) :
    quotients (fuel + 1) n d = n / d :: quotients fuel d (n % d) := by
  simp [quotients, hd]

/-- The loop has taken the quotients l of n0/d0, its remainders give the rest of them, and a fraction that begins with l is
its two convergents combined by the value of what follows l. -/
structure ConvState.HasTaken (n0 d0 : Nat) (l : List Nat) (c : ConvState) : Prop where
  rest : ∃ fuel, c.d < fuel ∧ quotients (d0 + 1) n0 d0 = l ++ quotients fuel c.n c.d
  value : ∀ t, continuedFraction (l ++ t) =
    (c.p1 * (continuedFraction t).1 + c.p0 * (continuedFraction t).2,
      c.q1 * (continuedFraction t).1 + c.q0 * (continuedFraction t).2)

theorem convStart_hasTaken (n d : Nat) : (convStart n d).HasTaken n d [] where
  rest := ⟨d + 1, Nat.lt_succ_self d, rfl⟩
  value t := by simp

namespace ConvState.HasTaken

variable {n0 d0 : Nat} {l : List Nat} {c : ConvState}

/-- While a remainder is left, the next quotient is the loop's. -/
theorem rest_cons (h : c.HasTaken n0 d0 l) (hd : c.d ≠ 0) :
    ∃ fuel, c.advance.d < fuel ∧
      quotients (d0 + 1) n0 d0 = l ++ c.quot :: quotients fuel c.advance.n c.advance.d := by
  obtain ⟨fuel, hfuel, heq⟩ := h.rest
  have hlt := c.advance_d_lt hd
  obtain ⟨fuel, rfl⟩ := Nat.exists_eq_succ_of_ne_zero (Nat.ne_zero_of_lt hfuel)
  refine ⟨fuel, by omega, ?_⟩
  rw [heq, quotients_succ fuel hd, advance_n, advance_d]
  rfl

/-- With no remainder left, every quotient has been taken. -/
theorem rest_nil (h : c.HasTaken n0 d0 l) (hd : c.d = 0) : quotients (d0 + 1) n0 d0 = l := by
  obtain ⟨fuel, -, heq⟩ := h.rest
  simpa [hd] using heq

theorem advance (h : c.HasTaken n0 d0 l) (hd : c.d ≠ 0) : c.advance.HasTaken n0 d0 (l ++ [c.quot]) where
  rest := by
    obtain ⟨fuel, hfuel, heq⟩ := h.rest_cons hd
    exact ⟨fuel, hfuel, by simpa using heq⟩
  value t := by
    rw [List.append_assoc, List.singleton_append, h.value]
    simp only [continuedFraction, advance_p0, advance_q0, advance_p1, advance_q1, p2, q2, Prod.mk.injEq]
    constructor <;> ring

/-- What the loop holds is the fraction of the quotients taken. -/
theorem value_taken (h : c.HasTaken n0 d0 l) : continuedFraction l = (c.p1, c.q1) := by
  simpa [continuedFraction] using h.value []

/-- The empty fraction is 1/0, so a positive denominator has taken a quotient. -/
theorem length_pos (h : c.HasTaken n0 d0 l) (hq : 1 ≤ c.q1) : 1 ≤ l.length := by
  rw [Nat.one_le_iff_ne_zero, ne_eq, List.length_eq_zero_iff]
  rintro rfl
  have hzero : 0 = c.q1 := congrArg Prod.snd h.value_taken
  omega

/-- The next convergent is the fraction of one quotient more. -/
theorem value_next (h : c.HasTaken n0 d0 l) (hd : c.d ≠ 0) : continuedFraction (l ++ [c.quot]) = (c.p2, c.q2) :=
  (h.advance hd).value_taken

end ConvState.HasTaken

/-! The number of iterations (40_approx R108). -/

/-- The last two denominators are at least the k-th and the next Fibonacci number. -/
structure ConvState.AtLeastFib (k : Nat) (c : ConvState) : Prop where
  q0 : Nat.fib k ≤ c.q0
  q1 : Nat.fib (k + 1) ≤ c.q1

theorem ConvState.AtLeastFib.advance {k : Nat} {c : ConvState} (h : c.AtLeastFib k) (hd : c.d ≠ 0) (hlt : c.d < c.n) :
    c.advance.AtLeastFib (k + 1) where
  q0 := h.q1
  q1 := by
    have hquot : 1 ≤ c.quot := Nat.div_pos hlt.le (Nat.pos_of_ne_zero hd)
    calc Nat.fib (k + 2) = Nat.fib k + Nat.fib (k + 1) := Nat.fib_add_two
      _ ≤ c.q0 + c.q1 := Nat.add_le_add h.q0 h.q1
      _ ≤ c.q0 + c.quot * c.q1 := Nat.add_le_add_left (Nat.le_mul_of_pos_left _ hquot) _

/-- Past the first advance, fuel enough for the Fibonacci numbers to exceed the bound gives the loop's result. -/
theorem approxLoop_fib_fuel {n0 m : Nat} :
    ∀ (f g k : Nat) (c : ConvState), c.InBounds n0 m → c.AtLeastFib k → m < Nat.fib (k + 1 + f) → c.d < g →
      approxLoop m f c = approxLoop m g c := by
  intro f
  induction f with
  | zero =>
    intro g k c hc hfib hm _
    exact absurd (hfib.q1.trans hc.le) (Nat.not_le.mpr hm)
  | succ f ih =>
    intro g k c hc hfib hm hg
    obtain ⟨g, rfl⟩ := Nat.exists_eq_succ_of_ne_zero (Nat.ne_zero_of_lt hg)
    by_cases hd : c.d = 0
    · rw [approxLoop_exact hd, approxLoop_exact hd]
    · rcases Nat.lt_or_ge m c.q2 with hq | hq
      · rw [approxLoop_cut hd hq, approxLoop_cut hd hq]
      · have hlt := c.advance_d_lt hd
        have hm' : m < Nat.fib (k + 1 + 1 + f) := by rwa [Nat.add_right_comm (k + 1) 1 f]
        rw [approxLoop_advance hd hq, approxLoop_advance hd hq]
        exact ih g (k + 1) c.advance (hc.advance hd hq) (hfib.advance hd hc.falling) hm' (by omega)

/-- For a bound m below the (K+1)-st Fibonacci number the loop runs at most K + 1 iterations (40_approx R108). -/
theorem approx_of_lt_fib {d m K : Nat} (n : Nat) (hm : 1 ≤ m) (hd : m < d) (hK : m < Nat.fib (K + 1)) :
    approx n d m = .ok (approxLoop m (K + 1) (convStart n d)) := by
  have hd0 := Nat.ne_zero_of_lt hd
  have hfib : (convStart n d).advance.AtLeastFib 0 := ⟨by simp, by simp [ConvState.q2]⟩
  have hsame := approxLoop_fib_fuel K d 0 (convStart n d).advance (convStart_advance_inBounds hd0 hm) hfib
    (by rwa [Nat.zero_add, Nat.add_comm]) ((convStart n d).advance_d_lt hd0)
  rw [approx_of_lt hm hd, approxLoop_convStart n d hd0 hm, approxLoop_convStart n K hd0 hm, hsame]

end Sys2Proof.Machine

open Sys2Proof Sys2Proof.Machine

/-- Settles O16: the pass-through test comes before the loop. -/
theorem approxPassesThrough : Obligations.ApproxPassesThrough :=
  fun _ _ _ hd h => approx_of_le (Nat.ne_zero_of_lt hd) h

/-- Settles O17, by the loop's bounds. -/
theorem approxDenominatorWithinBound : Obligations.ApproxDenominatorWithinBound := by
  intro n d m hd hm
  obtain ⟨r, hr⟩ := approx_exists_ok n (Nat.ne_zero_of_lt hd) (Nat.ne_zero_of_lt hm)
  obtain ⟨-, hpos, hle⟩ := approx_bounds hr
  exact ⟨r, hr, fun _ => ⟨hpos, hle⟩, fun h => approx_den_of_le (Nat.ne_zero_of_lt hd) h hr⟩

/-- Settles O18, by the state the loop stops in: its convergent is the reduced input when no remainder is left, and misses
the input's value when the bound cut the loop off. -/
theorem approxLowestTermsAndValue : Obligations.ApproxLowestTermsAndValue := by
  intro n d m r h _ hr
  obtain ⟨-, -, hle⟩ := approx_bounds hr
  obtain ⟨e, he, ⟨hd, rfl⟩ | ⟨hd, hq, rfl⟩⟩ := approx_stops h hr (convStart_expands n d) fun _ hc _ => hc.advance
  · have hreduced := he.eq_reduced hd (Nat.ne_zero_of_lt h)
    exact ⟨he.coprime, fun _ => hreduced, nofun, fun _ => hreduced.2 ▸ hle, fun _ => rfl⟩
  · have hlarge := hq.trans_le (he.q2_le_reduced hd)
    exact ⟨he.coprime, nofun, fun _ => he.ne_value hd, nofun, fun hfits => absurd hfits (Nat.not_le.mpr hlarge)⟩

/-- Settles O19: the denominator is d itself, or within a bound below d. -/
theorem approxResultNeverGrows : Obligations.ApproxResultNeverGrows := by
  intro n d m r _ hr
  obtain ⟨hnum, -, hle⟩ := approx_bounds hr
  refine ⟨hnum, ?_⟩
  rcases approx_cases n d m with ⟨-, h⟩ | ⟨hd, h, -⟩ | ⟨-, -, h⟩ | ⟨-, h, -⟩
  · cases h.symm.trans hr
  · exact (approx_den_of_le hd h hr).le
  · cases h.symm.trans hr
  · exact hle.trans h.le

/-- Settles O20: k counts the quotients the loop had taken when it stopped. -/
theorem approxIsLastConvergentInBound : Obligations.ApproxIsLastConvergentInBound := by
  intro n d m h hm
  obtain ⟨r, hr⟩ := approx_exists_ok n (Nat.ne_zero_of_lt h) (Nat.ne_zero_of_lt hm)
  obtain ⟨-, hpos, hle⟩ := approx_bounds hr
  obtain ⟨e, ⟨l, he⟩, hexit⟩ := approx_stops (P := fun c => ∃ l, c.HasTaken n d l) h hr
    ⟨[], convStart_hasTaken n d⟩ fun _ ⟨_, hc⟩ hd => ⟨_, hc.advance hd⟩
  refine ⟨r, l.length, hr, ?_⟩
  rcases hexit with ⟨hd, rfl⟩ | ⟨hd, hq, rfl⟩
  · rw [he.rest_nil hd, List.take_length, he.value_taken]
    exact ⟨he.length_pos hpos, le_rfl, rfl, hle, rfl, by simp, fun hlt => absurd hlt (lt_irrefl _)⟩
  · obtain ⟨fuel, -, hrest⟩ := he.rest_cons hd
    have hlt : l.length < (Claims.quotients (d + 1) n d).length := by simp [hrest]
    have htake : (Claims.quotients (d + 1) n d).take l.length = l := by simp [hrest]
    have hnext : (Claims.quotients (d + 1) n d).take (l.length + 1) = l ++ [e.quot] := by simp [hrest, List.take_append]
    rw [htake, hnext, he.value_taken, he.value_next hd]
    exact ⟨he.length_pos hpos, hlt.le, rfl, hle, rfl, iff_of_true rfl hlt, fun _ => hq⟩

/-- Settles O21: with numerator 0 the first iteration leaves 0/1 and no remainder. -/
theorem approxOfZeroNumerator : Obligations.ApproxOfZeroNumerator := by
  intro d m hd hm
  split
  case isTrue h =>
    rw [approx_of_lt hm h, approxLoop_convStart 0 d (Nat.ne_zero_of_lt hd) hm, approxLoop_exact (by simp)]
    simp [ConvState.p2, ConvState.q2, ConvState.quot]
  case isFalse h => exact approx_of_le (Nat.ne_zero_of_lt hd) (Nat.le_of_not_lt h)

/-- Settles O22: the 31st Fibonacci number is above the reset bound. -/
theorem approxLoopRunsAtMost31Times : Obligations.ApproxLoopRunsAtMost31Times :=
  fun n _ hd => approx_of_lt_fib (K := 30) n (by decide) hd (by norm_num)

/-- Settles O27: APPROX commits the pair and the flags of `approx`, which has a result, within the operands' registers. -/
theorem approxCommandResult : Obligations.ApproxCommandResult := by
  intro s hden hmax
  obtain ⟨r, hr⟩ := approx_exists_ok s.num.toNat (BitVec.toNat_inj.not.mpr hden) (BitVec.toNat_inj.not.mpr hmax)
  obtain ⟨hnum, -, hle⟩ := approx_bounds hr
  exact ⟨r, hr, hnum.trans_lt s.num.isLt, hle.trans_lt s.maxden.isLt, approx_apx_iff hr, exec_approx_of_ok hr⟩
end

section
/-! PROOF. The PLL encoder: the fields of a ratio, their reduction and their bytes, and PLLENC's results (41_pllenc R121
to R128). -/

namespace Sys2Proof.Machine

open Claims (lost pllencLeaves)

/-! The fields of a ratio (41_pllenc R121). -/

/-- Integer mode: den is not read. -/
theorem fields_of_num_zero (ip den : Nat) : fields ip 0 den = .ok ⟨128 * (ip : Int) - 512, 0, 1⟩ := rfl

/-- Fractional mode. -/
theorem fields_of_ne_zero {num den : Nat} (hnum : num ≠ 0) (hden : den ≠ 0) (ip : Nat) :
    fields ip num den =
      .ok ⟨128 * (ip : Int) + (128 * num / den : Nat) - 512, ((128 * num % den : Nat) : Int), den⟩ := by
  rcases fields_cases ip num den with ⟨h, -⟩ | ⟨-, h, -⟩ | ⟨-, -, h⟩
  · exact absurd h hnum
  · exact absurd h hden
  · exact h

/-! The reduction to the field widths (41_pllenc R123). -/

/-- `ofInt` keeps an integer's residue, the non-negative one. -/
theorem ofInt_toNat_cast (width : Nat) (v : Int) : ((BitVec.ofInt width v).toNat : Int) = v % 2 ^ width := by
  have hpos : (0 : Int) < 2 ^ width := by positivity
  rw [BitVec.toNat_ofInt, Nat.cast_pow, Nat.cast_ofNat, Int.toNat_of_nonneg (Int.emod_nonneg v hpos.ne')]

/-- TRUNC is `lost` of the three fields. -/
theorem reduce_trunc (r : RawFields) : (reduce r).trunc = lost r.p1 r.p2 r.p3 := by
  simp only [reduce, fitsField, lost, Bool.decide_and, Bool.and_assoc]
  rfl

theorem lost_eq_false_iff (p1 p2 p3 : Int) :
    lost p1 p2 p3 = false ↔ (0 ≤ p1 ∧ p1 < 2 ^ 18) ∧ (0 ≤ p2 ∧ p2 < 2 ^ 20) ∧ (0 ≤ p3 ∧ p3 < 2 ^ 20) := by
  rw [lost, Bool.not_eq_false', decide_eq_true_iff]
  norm_num

/-! The payload's bytes (41_pllenc R124). -/

/-- The bits of a field from position `start`, in arithmetic on the field. -/
theorem extractLsb'_toNat_div {width : Nat} (start len : Nat) (x : BitVec width) :
    (x.extractLsb' start len).toNat = x.toNat / 2 ^ start % 2 ^ len := by
  rw [BitVec.extractLsb'_toNat, Nat.shiftRight_eq_div_pow]

/-- The bits above position `start` alone reach to the end of the field, and need no residue. -/
theorem extractLsb'_toNat_top {width start len : Nat} (h : width = start + len) (x : BitVec width) :
    (x.extractLsb' start len).toNat = x.toNat / 2 ^ start := by
  subst h
  have hlt : x.toNat / 2 ^ start < 2 ^ len := Nat.div_lt_of_lt_mul (Nat.pow_add .. ▸ x.isLt)
  rw [extractLsb'_toNat_div, Nat.mod_eq_of_lt hlt]

/-- Two nibbles in one byte. -/
theorem nibbles_toNat (high low : BitVec 4) : (high ++ low : Byte).toNat = high.toNat * 16 + low.toNat :=
  append_toNat high low

/-! PLLENC's completion (41_pllenc R125, R126). -/

theorem exec_pllenc_of_ok {pll : PllSel} {s : State} {e : PllEncoding}
    (h : encodePll s.chip pll s.mult.toNat s.num.toNat s.den.toNat = .ok e) :
    exec (.pllenc pll) s =
      .next (((s.putPll e).setFlags (pllencFlags s.num.toNat e.fields)).emit e.tx.toList).complete := by
  simp [exec, execPllenc, h]

/-- The flags' tests compare numbers, the statements' compare registers. -/
theorem toNat_beq_toNat (v w : Word) : (v.toNat == w.toNat) = decide (v = w) := by
  rw [beq_eq_decide, decide_eq_decide, BitVec.toNat_inj]

/-- PLLENC commits the fields of its ratio. -/
theorem exec_pllenc_of_fields {pll : PllSel} {s : State} {p1 p2 p3 : Int}
    (h : fields s.mult.toNat s.num.toNat s.den.toNat = .ok ⟨p1, p2, p3⟩) :
    exec (.pllenc pll) s = .next (pllencLeaves s pll p1 p2 p3) := by
  have hintm : (s.num.toNat == 0) = decide (s.num = 0) := toNat_beq_toNat s.num 0
  rw [exec_pllenc_of_ok (encodePll_of_fields s.chip pll h), pllencFlags, hintm, reduce_trunc]
  rfl

end Sys2Proof.Machine

open Sys2Proof Sys2Proof.Machine

/-- Settles O23: the two modes of `fields`, and the identity of quotient and remainder. -/
theorem fieldsSplitTheRatio : Obligations.FieldsSplitTheRatio := by
  intro ip num den
  refine ⟨fields_of_num_zero ip den, fun hnum => fields_of_den_zero hnum ip, fun hnum hden => ?_⟩
  have hmod : ((128 * num % den : Nat) : Int) < den := Int.ofNat_lt.mpr (Nat.mod_lt _ (Nat.pos_of_ne_zero hden))
  have hsplit : (den : Int) * (128 * num / den : Nat) + (128 * num % den : Nat) = 128 * num := by
    exact_mod_cast Nat.div_add_mod (128 * num) den
  refine ⟨_, fields_of_ne_zero hnum hden ip, rfl, rfl, Int.natCast_nonneg _, hmod, rfl, ?identity, fun hlt => ?range⟩
  case identity => linear_combination hsplit
  case range =>
    have hquot : 128 * num / den < 128 := Nat.div_lt_of_lt_mul (by omega)
    generalize 128 * num / den = quot at hquot ⊢
    dsimp only
    omega

/-- Settles O24: each field keeps its residue, and TRUNC is 0 when the three are in range. -/
theorem reduceKeepsLowBits : Obligations.ReduceKeepsLowBits := by
  intro r
  refine ⟨ofInt_toNat_cast 18 r.p1, ofInt_toNat_cast 20 r.p2, ofInt_toNat_cast 20 r.p3, ?_⟩
  rw [reduce_trunc]
  exact lost_eq_false_iff r.p1 r.p2 r.p3

/-- Settles O25: each byte is a residue of a quotient of its field, and the fields' top bits need no residue. -/
theorem payloadByteLayout : Obligations.PayloadByteLayout := by
  intro p1 p2 p3 or2
  have top1 := extractLsb'_toNat_top (start := 16) (len := 2) rfl p1
  have top2 := extractLsb'_toNat_top (start := 16) (len := 4) rfl p2
  have top3 := extractLsb'_toNat_top (start := 16) (len := 4) rfl p3
  simp only [payload, Vector.toList_mk, List.map_cons, List.map_nil, BitVec.toNat_or,
    BitVec.toNat_setWidth_of_le (show 2 ≤ 8 by decide), nibbles_toNat, top1, top2, top3, extractLsb'_toNat_div 8 8,
    extractLsb'_toNat_div 0 8, Nat.pow_zero, Nat.div_one]
  rfl

/-- Settles O29: with NUM = 0 the fields are those of integer mode. -/
theorem pllencIntegerMode : Obligations.PllencIntegerMode := by
  intro s pll hnum
  apply exec_pllenc_of_fields
  rw [hnum]
  exact fields_of_num_zero _ _

/-- Settles O30: with NUM and DEN not 0 the fields are those of fractional mode. -/
theorem pllencFractionalMode : Obligations.PllencFractionalMode := fun _ _ hnum hden =>
  exec_pllenc_of_fields (fields_of_ne_zero (BitVec.toNat_inj.not.mpr hnum) (BitVec.toNat_inj.not.mpr hden) _)
end

section
/-! PROOF. The output-divider encoder: the bits it adds with the default chip constants, and MSENC's results (42_msenc R136
to R143). -/

namespace Sys2Proof.Machine

open Claims (msencLeaves)

/-! MSENC's completion (42_msenc R136, R143). -/

theorem exec_msenc_of_ok {pll : PllSel} {ch : BitVec 2} {rdiv : BitVec 3} {drv : BitVec 2} {c : Channel} {s : State}
    {e : MsEncoding} (hc : channelOf ch = some c)
    (h : encodeMs s.chip pll c rdiv drv s.div.toNat s.num.toNat s.den.toNat = .ok e) :
    exec (.msenc pll ch rdiv drv) s =
      .next ((((s.putMs e).setFlags (msencFlags s.div.toNat s.num.toNat e.fields)).emit e.tx.toList).emit
        e.cc.toList).complete := by
  simp [exec, execMsenc, hc, h]

/-- Two transactions stand in the stream in the order they were emitted (20_memory R66). -/
theorem State.emit_emit (s : State) (t u : Transaction) :
    (s.emit t).emit u = { s with txStream := s.txStream ++ [t, u] } := by
  simp [State.emit]

/-- MSENC commits the fields of its divider, and names DIV = 4 and NUM = 0 in the flags and in the bytes it emits. -/
theorem exec_msenc_of_fields {pll : PllSel} {ch : BitVec 2} {rdiv : BitVec 3} {drv : BitVec 2} {c : Channel} {s : State}
    {p1 p2 p3 : Int} (hc : channelOf ch = some c)
    (h : msFields s.div.toNat s.num.toNat s.den.toNat = .ok ⟨p1, p2, p3⟩) :
    exec (.msenc pll ch rdiv drv) s = .next (msencLeaves s pll c rdiv drv p1 p2 p3) := by
  have hintm : (s.num.toNat == 0) = decide (s.num = 0) := toNat_beq_toNat s.num 0
  have hdiv4 : (s.div.toNat == 4) = decide (s.div = 4) := toNat_beq_toNat s.div 4
  rw [exec_msenc_of_ok hc (encodeMs_of_fields s.chip pll c rdiv drv h), msencFlags, hintm, hdiv4, reduce_trunc,
    State.emit_emit]
  rfl

/-- Every DIV but 4 takes the fields of its ratio (42_msenc R138). -/
theorem exec_msenc_of_div_ne_four {pll : PllSel} {ch : BitVec 2} {rdiv : BitVec 3} {drv : BitVec 2} {c : Channel}
    {s : State} {p1 p2 p3 : Int} (hc : channelOf ch = some c) (hdiv : s.div ≠ 4)
    (h : fields s.div.toNat s.num.toNat s.den.toNat = .ok ⟨p1, p2, p3⟩) :
    exec (.msenc pll ch rdiv drv) s = .next (msencLeaves s pll c rdiv drv p1 p2 p3) :=
  exec_msenc_of_fields hc ((msFields_of_ne (BitVec.toNat_inj.not.mpr hdiv) _ _).trans h)

end Sys2Proof.Machine

open Sys2Proof Sys2Proof.Machine

/-- Settles O26, by evaluation at every value of the fields, sixteen for each byte: no two ORed parts share a bit. -/
theorem defaultOutputDividerBits : Obligations.DefaultOutputDividerBits := by
  refine ⟨by decide, fun pll => ?_⟩
  cases pll with
  | a => decide
  | b => decide

/-- Settles O31: with DIV = 4 the ratio is not read. -/
theorem msencDivideByFour : Obligations.MsencDivideByFour := by
  intro s pll ch rdiv drv c hc hdiv
  apply exec_msenc_of_fields hc
  rw [hdiv]
  exact msFields_four _ _

/-- Settles O32: with NUM = 0 the fields are those of integer mode. -/
theorem msencIntegerMode : Obligations.MsencIntegerMode := by
  intro s pll ch rdiv drv c hc hdiv hnum
  apply exec_msenc_of_div_ne_four hc hdiv
  rw [hnum]
  exact fields_of_num_zero _ _

/-- Settles O33: with NUM and DEN not 0 the fields are those of fractional mode. -/
theorem msencFractionalMode : Obligations.MsencFractionalMode := fun _ _ _ _ _ _ hc hdiv hnum hden =>
  exec_msenc_of_div_ne_four hc hdiv
    (fields_of_ne_zero (BitVec.toNat_inj.not.mpr hnum) (BitVec.toNat_inj.not.mpr hden) _)
end

section
/-! PROOF. The ratio commands: the ratio stage's results and faults, RATFP's and RATFD's commits, and SETFP and SETFD as
their stages one after the other (43_ratio R156 to R167). -/

namespace Sys2Proof.Machine

/-! A proper fraction's approximation (43_ratio R158(d), R160(a)). -/

/-- The loop of `approx` on n0 < d0, past its first advance: the convergent is at most 1, and stays so at every advance
because each further quotient is positive. -/
structure ConvState.AtMostOne (c : ConvState) : Prop where
  falling : c.d < c.n
  le : c.p1 ≤ c.q1
  sum_le : c.p0 + c.p1 ≤ c.q0 + c.q1

theorem ConvState.AtMostOne.advance {c : ConvState} (h : c.AtMostOne) (hd : c.d ≠ 0) : c.advance.AtMostOne := by
  obtain ⟨k, hk⟩ : ∃ k, c.quot = k + 1 :=
    Nat.exists_eq_succ_of_ne_zero (Nat.div_pos h.falling.le (Nat.pos_of_ne_zero hd)).ne'
  have hle : c.p2 ≤ c.q2 := calc
    c.p2 = c.p0 + c.p1 + k * c.p1 := by rw [ConvState.p2, hk]; ring
    _ ≤ c.q0 + c.q1 + k * c.q1 := Nat.add_le_add h.sum_le (Nat.mul_le_mul_left k h.le)
    _ = c.q2 := by rw [ConvState.q2, hk]; ring
  exact ⟨c.advance_d_lt hd, hle, Nat.add_le_add h.le hle⟩

/-- A proper fraction's first quotient is 0, so its first convergent is 0/1. -/
theorem convStart_advance_atMostOne {n d : Nat} (h : n < d) : (convStart n d).advance.AtMostOne where
  falling := (convStart n d).advance_d_lt (Nat.ne_zero_of_lt h)
  le := by simp [ConvState.p2, ConvState.q2, ConvState.quot, Nat.div_eq_of_lt h]
  sum_le := by simp [ConvState.p2, ConvState.q2, ConvState.quot, Nat.div_eq_of_lt h]

/-- The approximation of a proper fraction is at most 1. -/
theorem approx_num_le_den {n d m : Nat} {r : ApproxResult} (h : n < d) (hr : approx n d m = .ok r) : r.num ≤ r.den := by
  have hd := Nat.ne_zero_of_lt h
  obtain ⟨-, hpos, hbound⟩ := approx_bounds hr
  have hm : 1 ≤ m := hpos.trans hbound
  rcases le_or_gt d m with hle | hlt
  · rw [approx_of_le hd hle] at hr
    cases hr
    exact h.le
  · rw [approx_of_lt hm hlt, approxLoop_convStart n d hd hm, Except.ok.injEq] at hr
    obtain ⟨e, he, ⟨-, hres⟩ | ⟨-, -, hres⟩⟩ := approxLoop_stops (m := m) (fun _ hc hd _ => hc.advance hd) d _
      (convStart_advance_atMostOne h) ((convStart n d).advance_d_lt hd)
    all_goals
      rw [← hr, hres]
      exact he.le

/-! The ratio stage (43_ratio R156, R159). -/

/-- The three numbers of a ratio fit their registers, and its fraction has a denominator (43_ratio R158(d), R160(a)). -/
structure Ratio.Fits (r : Ratio) : Prop where
  quot : r.quot < 2 ^ 32
  num : r.frac.num < 2 ^ 32
  den : r.frac.den < 2 ^ 32
  den_ne_zero : r.frac.den ≠ 0

/-- The ratio stage on operands without a fault: the fraction is at most 1 and its denominator within MAXDEN. -/
theorem ratioStage_fits {t den : Nat} {m : Word} (hd : den ≠ 0) (hm : m ≠ 0) (hq : t / den < 2 ^ 32) :
    ∃ r, approx (t % den) den m.toNat = .ok r ∧ Ratio.Fits ⟨t / den, r⟩ ∧
      ratioStage 32 t den m.toNat = .ok ⟨t / den, r⟩ := by
  obtain ⟨r, hr⟩ := approx_exists_ok (t % den) hd (BitVec.toNat_inj.not.mpr hm)
  obtain ⟨-, hpos, hbound⟩ := approx_bounds hr
  have hden : r.den < 2 ^ 32 := hbound.trans_lt m.isLt
  have hnum : r.num ≤ r.den := approx_num_le_den (Nat.mod_lt t (Nat.pos_of_ne_zero hd)) hr
  refine ⟨r, hr, ⟨hq, hnum.trans_lt hden, hden, Nat.ne_zero_of_lt hpos⟩, ?_⟩
  rw [ratioStage_of_approx hd hr, if_neg (Nat.not_le.mpr hq)]

/-- The ratio stage's faults by their codes, in their order (60_exceptions R228). -/
theorem ratioStage_faults {t den m : Nat} {k : BitVec 4}
    (h : (k = 4 ∧ den = 0) ∨ (k = 3 ∧ den ≠ 0 ∧ m = 0) ∨ (k = 5 ∧ den ≠ 0 ∧ m ≠ 0 ∧ 2 ^ 32 ≤ t / den)) :
    ∃ c : Cause, c.code = k ∧ ratioStage 32 t den m = .error c := by
  rcases h with ⟨rfl, hd⟩ | ⟨rfl, hd, hm⟩ | ⟨rfl, hd, hm, hq⟩
  · exact ⟨.divzero, rfl, by simp [ratioStage, hd]⟩
  · exact ⟨.zeromax, rfl, by simp [ratioStage, approx, hd, hm]⟩
  · obtain ⟨r, hr⟩ := approx_exists_ok (t % den) hd hm
    exact ⟨.overflow, rfl, by rw [ratioStage_of_approx hd hr, if_pos hq]⟩

/-! The commits and the faults of the ratio commands, and when the encoder stages answer. -/

/-- What RATFP (with q = DIV) and RATFD (with q = MULT) leave (43_ratio R156, R159). -/
def State.commitRatio (s : State) (q : GReg) (r : Ratio) : State :=
  (((s.setG q (BitVec.ofNat 32 r.quot)).putFrac r.frac).setFlags (approxFlags r.frac)).complete

variable {pll : PllSel} {ch : BitVec 2} {rdiv : BitVec 3} {drv : BitVec 2} {c : Channel} {s : State}

theorem exec_ratfp_of_ok {r : Ratio} (h : s.fixedPllRatio = .ok r) :
    exec .ratfp s = .next (s.commitRatio .div r) := by
  simp [exec, execRatfp, h, State.commitRatio]

theorem exec_ratfd_of_ok {r : Ratio} (h : s.fixedDivRatio = .ok r) :
    exec .ratfd s = .next (s.commitRatio .mult r) := by
  simp [exec, execRatfd, h, State.commitRatio]

theorem exec_ratfp_of_error {f : Cause} (h : s.fixedPllRatio = .error f) :
    exec .ratfp s = .next (s.raise f) := by
  simp [exec, execRatfp, h]

theorem exec_ratfd_of_error {f : Cause} (h : s.fixedDivRatio = .error f) :
    exec .ratfd s = .next (s.raise f) := by
  simp [exec, execRatfd, h]

theorem exec_setfp_of_ratio_error {f : Cause} (hc : channelOf ch = some c) (h : s.fixedPllRatio = .error f) :
    exec (.setfp pll ch rdiv drv) s = .next (s.raise f) := by
  simp [exec, execSetfp, hc, h]

theorem exec_setfd_of_ratio_error {f : Cause} (hc : channelOf ch = some c) (h : s.fixedDivRatio = .error f) :
    exec (.setfd pll ch rdiv drv) s = .next (s.raise f) := by
  simp [exec, execSetfd, hc, h]

theorem exec_setfp_of_ok {r : Ratio} {e : MsEncoding} (hc : channelOf ch = some c) (hr : s.fixedPllRatio = .ok r)
    (he : encodeMs s.chip pll c rdiv drv r.quot r.frac.num r.frac.den = .ok e) :
    exec (.setfp pll ch rdiv drv) s =
      .next ((((((s.setG .div (BitVec.ofNat 32 r.quot)).putFrac r.frac).putMs e).setFlags
        (setfpFlags r e.fields)).emit e.tx.toList).emit e.cc.toList).complete := by
  simp [exec, execSetfp, hc, hr, he]

theorem exec_setfd_of_ok {r : Ratio} {ep : PllEncoding} {em : MsEncoding} (hc : channelOf ch = some c)
    (hr : s.fixedDivRatio = .ok r) (hp : encodePll s.chip pll r.quot r.frac.num r.frac.den = .ok ep)
    (hm : encodeMs s.chip pll c rdiv drv s.div.toNat 0 1 = .ok em) :
    exec (.setfd pll ch rdiv drv) s =
      .next ((((((((s.setG .mult (BitVec.ofNat 32 r.quot)).putFrac r.frac).putPll ep).putMs em).setFlags
        (setfdFlags r s.div.toNat ep.fields em.fields)).emit ep.tx.toList).emit em.tx.toList).emit
        em.cc.toList).complete := by
  simp [exec, execSetfd, hc, hr, hp, hm]

/-- A fraction with a denominator is encoded (41_pllenc R129). -/
theorem encodePll_exists_ok (chip : ChipParams) (pll : PllSel) (ip num : Nat) {den : Nat} (h : den ≠ 0) :
    ∃ e, encodePll chip pll ip num den = .ok e := by
  rcases fields_cases ip num den with ⟨-, hf⟩ | ⟨-, hd, -⟩ | ⟨-, -, hf⟩
  · exact ⟨_, encodePll_of_fields chip pll hf⟩
  · exact absurd hd h
  · exact ⟨_, encodePll_of_fields chip pll hf⟩

/-- A fraction with a denominator is encoded (42_msenc R146). -/
theorem encodeMs_exists_ok (chip : ChipParams) (pll : PllSel) (c : Channel) (rdiv : BitVec 3) (drv : BitVec 2)
    (div num : Nat) {den : Nat} (h : den ≠ 0) : ∃ e, encodeMs chip pll c rdiv drv div num den = .ok e := by
  cases hf : msFields div num den with
  | error f => exact absurd (msFields_error hf).2.2.2 h
  | ok raw => exact ⟨_, encodeMs_of_fields chip pll c rdiv drv hf⟩

/-! A ratio read back from the registers it was left in: the operands of the command that follows. -/

@[simp] theorem State.commitRatio_chip (s : State) (q : GReg) (r : Ratio) : (s.commitRatio q r).chip = s.chip := by
  cases q <;> rfl

theorem Ratio.Fits.commitRatio_num {r : Ratio} (h : r.Fits) (s : State) (q : GReg) :
    (s.commitRatio q r).num.toNat = r.frac.num :=
  Nat.mod_eq_of_lt h.num

theorem Ratio.Fits.commitRatio_den {r : Ratio} (h : r.Fits) (s : State) (q : GReg) :
    (s.commitRatio q r).den.toNat = r.frac.den :=
  Nat.mod_eq_of_lt h.den

theorem Ratio.Fits.commitRatio_div {r : Ratio} (h : r.Fits) (s : State) :
    (s.commitRatio .div r).div.toNat = r.quot :=
  Nat.mod_eq_of_lt h.quot

theorem Ratio.Fits.commitRatio_mult {r : Ratio} (h : r.Fits) (s : State) :
    (s.commitRatio .mult r).mult.toNat = r.quot :=
  Nat.mod_eq_of_lt h.quot

/-- WR NUM, then WR DEN, to an idle RADE (20_memory R62). -/
theorem State.hostWrite_num_den_of_idle {s : State} (h : s.phase = .idle) (num den : Word) :
    (s.hostWrite 0 num).hostWrite 1 den = { s with num := num, den := den } := by
  have hnum : s.hostWrite 0 num = s.setG .num num := State.hostWrite_index_of_idle h .num num
  rw [hnum]
  exact State.hostWrite_index_of_idle (s := s.setG .num num) h .den den

/-- MSENC after WR NUM 0, WR DEN 1 encodes DIV as an integer divider (43_ratio R167). -/
theorem exec_msenc_after_integer_writes {e : MsEncoding} (hc : channelOf ch = some c) (hp : s.phase = .idle)
    (he : encodeMs s.chip pll c rdiv drv s.div.toNat 0 1 = .ok e) :
    exec (.msenc pll ch rdiv drv) ((s.hostWrite 0 0).hostWrite 1 1) =
      .next (((({ s with num := 0, den := 1 }.putMs e).setFlags (msencFlags s.div.toNat 0 e.fields)).emit
        e.tx.toList).emit e.cc.toList).complete := by
  rw [State.hostWrite_num_den_of_idle hp]
  exact exec_msenc_of_ok hc he

theorem toNat_mul_toNat_ne_zero {v w : Word} (hv : v ≠ 0) (hw : w ≠ 0) : v.toNat * w.toNat ≠ 0 :=
  Nat.mul_ne_zero (BitVec.toNat_inj.not.mpr hv) (BitVec.toNat_inj.not.mpr hw)

end Sys2Proof.Machine

open Sys2Proof Sys2Proof.Machine

/-- Settles O35: RATFP commits the ratio of its stage, whose three numbers fit. -/
theorem ratfpCommandResult : Obligations.RatfpCommandResult := by
  intro s hfreq hmax hq
  obtain ⟨r, hr, hfits, hstage⟩ := ratioStage_fits (BitVec.toNat_inj.not.mpr hfreq) hmax hq
  exact ⟨r, hr, hfits.num, hfits.den, exec_ratfp_of_ok hstage⟩

/-- Settles O36: RATFD commits the ratio of its stage, whose three numbers fit although REF*HMUL need not. -/
theorem ratfdCommandResult : Obligations.RatfdCommandResult := by
  intro s href hhmul hmax hq
  obtain ⟨r, hr, hfits, hstage⟩ := ratioStage_fits (toNat_mul_toNat_ne_zero href hhmul) hmax hq
  exact ⟨r, hr, hfits.num, hfits.den, exec_ratfd_of_ok hstage⟩

/-- Settles O37: each command takes the fault of its ratio stage. -/
theorem ratioCommandFaults : Obligations.RatioCommandFaults := by
  intro s pll ch rdiv drv hch
  obtain ⟨c, hc⟩ := (ne_three_iff_exists_channelOf ch).mp hch
  refine ⟨fun k hk => ?pllFixed, fun k hk => ?divFixed⟩
  case pllFixed =>
    obtain ⟨f, rfl, hf⟩ := ratioStage_faults (t := s.ref.toNat * s.hmul.toNat) (den := s.freq.toNat)
      (m := s.maxden.toNat) (k := k) (by simpa [← BitVec.toNat_inj] using hk)
    exact ⟨exec_ratfp_of_error hf, exec_setfp_of_ratio_error hc hf⟩
  case divFixed =>
    obtain ⟨f, rfl, hf⟩ := ratioStage_faults (t := s.freq.toNat * s.div.toNat) (den := s.ref.toNat * s.hmul.toNat)
      (m := s.maxden.toNat) (k := k) (by simpa [← BitVec.toNat_inj, and_assoc] using hk)
    exact ⟨exec_ratfd_of_error hf, exec_setfd_of_ratio_error hc hf⟩

/-- Settles O38: MSENC on RATFP's registers encodes the ratio SETFP encodes. -/
theorem setfpEqualsRatfpThenMsenc : Obligations.SetfpEqualsRatfpThenMsenc := by
  intro s pll ch rdiv drv hch hfreq hmax hq
  obtain ⟨c, hc⟩ := (ne_three_iff_exists_channelOf ch).mp hch
  obtain ⟨frac, -, hfits, hstage⟩ := ratioStage_fits (BitVec.toNat_inj.not.mpr hfreq) hmax hq
  generalize (⟨_, frac⟩ : Ratio) = r at hfits hstage
  obtain ⟨e, he⟩ := encodeMs_exists_ok s.chip pll c rdiv drv r.quot r.frac.num hfits.den_ne_zero
  have hms := exec_msenc_of_ok (s := s.commitRatio .div r) hc (e := e) (by
    simpa only [s.commitRatio_chip, hfits.commitRatio_div, hfits.commitRatio_num, hfits.commitRatio_den] using he)
  refine ⟨_, _, exec_ratfp_of_ok hstage, hms, rfl, rfl, ?_⟩
  rw [exec_setfp_of_ok hc hstage he, hfits.commitRatio_div, hfits.commitRatio_num]
  rfl

/-- Settles O39: PLLENC on RATFD's registers encodes the ratio SETFD encodes, and MSENC after the two writes encodes
DIV as SETFD's last stage does. -/
theorem setfdEqualsSeparateCommands : Obligations.SetfdEqualsSeparateCommands := by
  intro s pll ch rdiv drv hch href hhmul hmax hq
  obtain ⟨c, hc⟩ := (ne_three_iff_exists_channelOf ch).mp hch
  obtain ⟨frac, -, hfits, hstage⟩ := ratioStage_fits (toNat_mul_toNat_ne_zero href hhmul) hmax hq
  generalize (⟨_, frac⟩ : Ratio) = r at hfits hstage
  obtain ⟨ep, hp⟩ := encodePll_exists_ok s.chip pll r.quot r.frac.num hfits.den_ne_zero
  obtain ⟨em, hm⟩ := encodeMs_exists_ok s.chip pll c rdiv drv s.div.toNat 0 one_ne_zero
  have hpll := exec_pllenc_of_ok (pll := pll) (s := s.commitRatio .mult r) (e := ep) (by
    simpa only [s.commitRatio_chip, hfits.commitRatio_mult, hfits.commitRatio_num, hfits.commitRatio_den] using hp)
  refine ⟨_, _, _, exec_ratfd_of_ok hstage, hpll, exec_msenc_after_integer_writes hc rfl hm, rfl, rfl, rfl, ?_⟩
  rw [exec_setfd_of_ok hc hstage hp hm]
  rfl
end

section
/-! PROOF. The control commands NOP and CLRF, by what the word in the latch decodes to (44_control R181, R182). -/

namespace Sys2Proof.Machine

/-- A word with OP 0 is NOP when its reserved bits are 0 (30_encoding R84(b)). -/
theorem decode_of_op_zero {w : BitVec 32} (hop : w.toNat % 16 = 0) (hres : w.toNat / 4096 = 0) :
    decode w = .ok .nop :=
  Instr.NamedBy.decode_eq_ok ⟨opField_eq_iff.mpr hop, rfl⟩ (reservedField_eq_zero_iff.mpr hres) rfl

/-- A word with OP 0 and a reserved bit set is illegal (30_encoding R84(b)). -/
theorem illegalWord_of_op_zero {w : Nat} (hop : w % 16 = 0) (hres : w / 4096 ≠ 0) : Claims.illegalWord w :=
  .inr (.inl ⟨hres, by omega, by omega⟩)

/-- After CLRF STATUS reads 0 (44_control R182). -/
@[simp] theorem State.clearFault_statusWord (s : State) : s.clearFault.statusWord = 0 := by
  simp [State.statusWord, State.faultShown, State.causeShown, ResultFlags.clear]

end Sys2Proof.Machine

open Sys2Proof Sys2Proof.Machine

/-- Settles O40: NOP only completes, and a word with OP 0 is NOP or, by a reserved bit, illegal. -/
theorem nopSetsDoneOnly : Obligations.NopSetsDoneOnly := by
  refine ⟨exec_nop_eq, fun s es hp h hop => ?_⟩
  rw [step_of_engine h]
  split
  case isTrue hres =>
    exact engineTurn_of_decode (s := s.withEvents es) hp (decode_of_op_zero hop hres)
  case isFalse hres =>
    exact engineTurn_of_illegal (s := s.withEvents es) hp (illegalWord_of_op_zero hop hres)

/-- Settles O41: CLRF is `clearFault`, and OP 0xE decodes to it whatever the other bits. -/
theorem clrfClearsFaultAndFlags : Obligations.ClrfClearsFaultAndFlags := by
  refine fun s => ⟨s.clearFault, exec_clrf_eq s, s.clearFault_statusWord, rfl, fun es hp h hop => ?_⟩
  have hdecode : decode s.cmdLatch = .ok .clrf := decode_of_opField_clrf (opField_eq_iff.mpr hop)
  exact (step_of_engine h).trans (engineTurn_of_decode (s := s.withEvents es) hp hdecode)
end

section
/-! PROOF. The faults a command may take, and that a fault is the fault record alone (60_exceptions R221 to R228). -/

namespace Sys2Proof.Machine

open Claims (causesOf)
open Laws.EncodeShape (opcode)

/-! The causes of a stage (60_exceptions R224 to R227). -/

/-- Every fault of the rule x has its code in the list. -/
structure RaisesOnly {α : Type} (causes : List (BitVec 4)) (x : Except Cause α) : Prop where
  code_mem : ∀ f : Cause, x = .error f → f.code ∈ causes

theorem RaisesOnly.ok {α : Type} {causes : List (BitVec 4)} (a : α) : RaisesOnly causes (.ok a) where
  code_mem := nofun

theorem RaisesOnly.error {α : Type} {causes : List (BitVec 4)} {f : Cause} (h : f.code ∈ causes) :
    RaisesOnly causes (.error f : Except Cause α) where
  code_mem := by
    rintro _ ⟨⟩
    exact h

/-- A stage's list within a command's: both are closed at each use. -/
theorem RaisesOnly.mono {α : Type} {causes causes' : List (BitVec 4)} {x : Except Cause α} (h : RaisesOnly causes x)
    (hsub : causes ⊆ causes' := by decide) : RaisesOnly causes' x where
  code_mem f hf := hsub (h.code_mem f hf)

/-- What is computed from a rule's result adds no fault. -/
theorem RaisesOnly.map {α β : Type} {causes : List (BitVec 4)} {x : Except Cause α} (h : RaisesOnly causes x)
    (g : α → β) : RaisesOnly causes (x.map g) := by
  cases x with
  | error f => exact .error (h.code_mem f rfl)
  | ok a => exact .ok (g a)

/-- A rule of two stages takes the faults of either. -/
theorem RaisesOnly.bind {α β : Type} {causes : List (BitVec 4)} {x : Except Cause α} {g : α → Except Cause β}
    (h : RaisesOnly causes x) (hg : ∀ a, RaisesOnly causes (g a)) : RaisesOnly causes (x.bind g) := by
  cases x with
  | error f => exact .error (h.code_mem f rfl)
  | ok a => exact hg a

theorem channelOrIllcmd_raisesOnly (ch : BitVec 2) : RaisesOnly [1] (channelOrIllcmd ch) := by
  unfold channelOrIllcmd
  cases channelOf ch with
  | none => exact .error (by decide)
  | some c => exact .ok c

theorem approx_raisesOnly (n d m : Nat) : RaisesOnly [2, 3] (approx n d m) := by
  rcases approx_cases n d m with ⟨_, h⟩ | ⟨_, _, h⟩ | ⟨_, _, h⟩ | ⟨_, _, h⟩ <;> rw [h]
  · exact .error (by decide)
  · exact .ok _
  · exact .error (by decide)
  · exact .ok _

theorem ratioStage_raisesOnly (xlen t den m : Nat) : RaisesOnly [3, 4, 5] (ratioStage xlen t den m) := by
  rcases ratioStage_cases xlen t den m with ⟨_, h⟩ | ⟨_, _, h⟩ | ⟨_, _, _, _, h⟩ <;> rw [h]
  · exact .error (by decide)
  · exact .error (by decide)
  · split
    · exact .error (by decide)
    · exact .ok _

theorem encodePll_raisesOnly (chip : ChipParams) (pll : PllSel) (ip num den : Nat) :
    RaisesOnly [4] (encodePll chip pll ip num den) := by
  rcases fields_cases ip num den with ⟨_, hf⟩ | ⟨_, _, hf⟩ | ⟨_, _, hf⟩
  · exact encodePll_of_fields chip pll hf ▸ .ok _
  · exact encodePll_of_fields_error chip pll hf ▸ .error (by decide)
  · exact encodePll_of_fields chip pll hf ▸ .ok _

theorem encodeMs_raisesOnly (chip : ChipParams) (pll : PllSel) (c : Channel) (rdiv : BitVec 3) (drv : BitVec 2)
    (div num den : Nat) : RaisesOnly [4] (encodeMs chip pll c rdiv drv div num den) := by
  cases hf : msFields div num den with
  | error f =>
    obtain ⟨rfl, -⟩ := msFields_error hf
    exact encodeMs_of_fields_error chip pll c rdiv drv hf ▸ .error (by decide)
  | ok raw => exact encodeMs_of_fields chip pll c rdiv drv hf ▸ .ok _

/-! The causes of a command (60_exceptions R222). -/

/-- If the completion is a fault, its code is in the list. -/
def Completion.RaisesOnly (causes : List (BitVec 4)) : Completion → Prop
  | .raise f => f.code ∈ causes
  | .commit _ | .clearFault | .resetRade => True

theorem Completion.RaisesOnly.ofExcept {causes : List (BitVec 4)} {x : Except Cause Commit}
    (h : Machine.RaisesOnly causes x) : (Completion.ofExcept x).RaisesOnly causes := by
  cases x with
  | error f => exact h.code_mem f rfl
  | ok c => trivial

/-- Each command takes the faults of its stages, which are in its list. -/
theorem completionOf_raisesOnly (i : Instr) (s : State) :
    (completionOf i s).RaisesOnly (causesOf (opcode i).toNat) := by
  cases i with
  | nop | clrf | reset => trivial
  | approx =>
    show Completion.RaisesOnly (causesOf 1) _
    exact .ofExcept (.map (.mono (approx_raisesOnly ..)) _)
  | pllenc pll =>
    show Completion.RaisesOnly (causesOf 2) _
    exact .ofExcept (.map (.mono (encodePll_raisesOnly ..)) _)
  | msenc pll ch rdiv drv =>
    show Completion.RaisesOnly (causesOf 3) _
    exact .ofExcept <| .bind (.mono (channelOrIllcmd_raisesOnly ch)) fun _ =>
      .map (.mono (encodeMs_raisesOnly ..)) _
  | ratfp =>
    show Completion.RaisesOnly (causesOf 4) _
    exact .ofExcept (.map (.mono (ratioStage_raisesOnly ..)) _)
  | ratfd =>
    show Completion.RaisesOnly (causesOf 5) _
    exact .ofExcept (.map (.mono (ratioStage_raisesOnly ..)) _)
  | setfp pll ch rdiv drv =>
    show Completion.RaisesOnly (causesOf 6) _
    exact .ofExcept <| .bind (.mono (channelOrIllcmd_raisesOnly ch)) fun _ =>
      .bind (.mono (ratioStage_raisesOnly ..)) fun _ => .map (.mono (encodeMs_raisesOnly ..)) _
  | setfd pll ch rdiv drv =>
    show Completion.RaisesOnly (causesOf 7) _
    exact .ofExcept <| .bind (.mono (channelOrIllcmd_raisesOnly ch)) fun _ =>
      .bind (.mono (ratioStage_raisesOnly ..)) fun _ => .bind (.mono (encodePll_raisesOnly ..)) fun _ =>
        .map (.mono (encodeMs_raisesOnly ..)) _
  | reserved8 | reserved9 | reservedA | reservedB | reservedC | reservedD => exact List.mem_singleton_self _

/-- From a fault-free state only a fault leaves FAULT = 1, and it is a fault of the command's list. -/
theorem raise_of_exec_fault {i : Instr} {s t : State} (h : exec i s = .next t) (hs : s.fault = false)
    (ht : t.fault = true) : ∃ f : Cause, t = s.raise f ∧ f.code ∈ causesOf (opcode i).toNat := by
  rw [run_of_exec h] at ht ⊢
  have honly := completionOf_raisesOnly i s
  cases hk : completionOf i s with rw [hk] at ht honly
  | commit c => exact nomatch hs.symm.trans ht
  | raise f => exact ⟨f, rfl, honly⟩
  | clearFault => nomatch ht
  | resetRade => nomatch ht

/-! The causes of a command word (60_exceptions R222, R223). -/

/-- The list of an illegal word holds ILLCMD: only CLRF and RESET lack it, and they are never illegal (30_encoding R84). -/
theorem illcmd_mem_causesOf_of_illegal {w : Nat} (h : Claims.illegalWord w) : Cause.illcmd.code ∈ causesOf (w % 16) := by
  have hop : w % 16 < 14 := by
    unfold Claims.illegalWord at h
    omega
  have hall : ∀ op < 14, Cause.illcmd.code ∈ causesOf op := by decide
  exact hall _ hop

/-- The engine's turn while BUSY takes only the faults of the list of the word in the latch. -/
theorem cause_mem_of_engineTurn {s t : State} (hp : s.phase = .run) (h : engineTurn s = .next t)
    (hs : s.fault = false) (ht : t.fault = true) : t.cause ∈ causesOf (s.cmdLatch.toNat % 16) := by
  rcases engineTurn_cases s with ⟨hidle, _⟩ | ⟨_, i, hi, hturn⟩ | ⟨_, e, he, hturn⟩
  · exact nomatch hp.symm.trans hidle
  · obtain ⟨f, rfl, hf⟩ := raise_of_exec_fault (hturn.symm.trans h) hs ht
    obtain ⟨hnamed, -, -⟩ := namedBy_of_decode hi
    rwa [← hnamed.op, opField_toNat] at hf
  · cases hturn.symm.trans h
    refine illcmd_mem_causesOf_of_illegal (by_contra fun hlegal => ?_)
    obtain ⟨i, hi, -⟩ := decode_of_legal hlegal
    exact nomatch he.symm.trans hi

/-! APPROX with a zero operand. -/

theorem exec_approx_of_error {s : State} {f : Cause} (h : approx s.num.toNat s.den.toNat s.maxden.toNat = .error f) :
    exec .approx s = .next (s.raise f) := by
  simp [exec, execApprox, h]

/-- The test for DEN = 0 comes first (40_approx R101). -/
theorem approx_of_den_zero (n m : Nat) : approx n 0 m = .error .zeroden := rfl

/-- No positive denominator is within the bound 0 (40_approx R101). -/
theorem approx_of_bound_zero {d : Nat} (hd : d ≠ 0) (n : Nat) : approx n d 0 = .error .zeromax := by
  simp [approx, hd]

end Sys2Proof.Machine

open Sys2Proof Sys2Proof.Machine

/-- Settles O43: only a fault sets FAULT from a fault-free state, and it is the fault record. -/
theorem faultChangesOnlyStatus : Obligations.FaultChangesOnlyStatus := by
  intro i s t h hs ht
  obtain ⟨f, rfl, -⟩ := raise_of_exec_fault h hs ht
  exact ⟨rfl, f.code_range⟩

/-- Settles O44: the engine's turn raises the causes of the latched command's stages, or ILLCMD on an illegal word. -/
theorem faultCausesByCommand : Obligations.FaultCausesByCommand := by
  intro s t es hp hevents h hs ht
  rw [step_of_engine hevents] at h
  exact cause_mem_of_engineTurn (s := s.withEvents es) hp h hs ht

/-- Settles O28: `approx` tests DEN, then MAXDEN. -/
theorem approxCommandFaults : Obligations.ApproxCommandFaults := by
  refine fun s => ⟨fun hden => exec_approx_of_error (f := .zeroden) ?_,
    fun hden hmax => exec_approx_of_error (f := .zeromax) ?_⟩
  · rw [hden]
    exact approx_of_den_zero _ _
  · rw [hmax]
    exact approx_of_bound_zero (BitVec.toNat_inj.not.mpr hden) _
end

section
/-! PROOF. What a step does to the schedule and to the count of draws, and a host that respects BUSY (20_memory R63, R71,
70_reset R246, R249, R250, R257). -/

namespace Sys2Proof.Machine

/-! The schedule and the count of draws, which only a host read and the taking of an event touch (log 3, log 5). -/

@[simp] theorem State.setG_events {xlen : Nat} (s : State xlen) (r : GReg) (v : Word xlen) :
    (s.setG r v).events = s.events := by cases r <;> rfl

@[simp] theorem State.setG_draws {xlen : Nat} (s : State xlen) (r : GReg) (v : Word xlen) :
    (s.setG r v).draws = s.draws := by cases r <;> rfl

/-- From s to t the schedule and the count of draws stay. -/
structure KeepsScheduleAndDraws (s t : State) : Prop where
  events_eq : t.events = s.events
  draws_eq : t.draws = s.draws

theorem CommandEffect.keepsScheduleAndDraws {s t : State} {i : Instr} (h : CommandEffect s i t) :
    KeepsScheduleAndDraws s t := by
  constructor <;> cases h <;> simp

/-- No write of the host is a draw, nor changes what comes after it. -/
theorem State.hostWrite_keepsScheduleAndDraws (s : State) (i : RegIndex) (v : Word) :
    KeepsScheduleAndDraws s (s.hostWrite i v) := by
  rcases s.hostWrite_cases i v with ⟨_, h⟩ | ⟨_, _, r, _, h⟩ | ⟨_, _, h⟩ <;> rw [h]
  · rcases s.writeCmd_cases v with ⟨_, h'⟩ | ⟨_, _, h'⟩ | ⟨_, _, _, h'⟩ <;> rw [h']
    · exact ⟨s.resetRade_events, s.resetRade_draws⟩
    · exact ⟨rfl, rfl⟩
    · exact ⟨s.issue_events v, s.issue_draws v⟩
  · exact ⟨s.setG_events r v, s.setG_draws r v⟩
  · exact ⟨rfl, rfl⟩

/-- The engine's turn ends in IDLE, by a completion, by a fault or by waiting, and is no access of the host. -/
theorem engineTurn_leaves {s t : State} (h : engineTurn s = .next t) :
    t.phase = .idle ∧ KeepsScheduleAndDraws s t := by
  rcases engineTurn_cases s with ⟨hidle, hturn⟩ | ⟨_, i, _, hturn⟩ | ⟨_, _, _, hturn⟩ <;> rw [hturn] at h
  · cases h
    exact ⟨hidle, rfl, rfl⟩
  · have heffect := effect_of_exec h
    exact ⟨heffect.phase_eq, heffect.keepsScheduleAndDraws⟩
  · cases h
    exact ⟨s.raise_phase .illcmd, s.raise_events .illcmd, s.raise_draws .illcmd⟩

/-- An idle engine waits (70_reset R246). -/
theorem engineTurn_of_idle {s : State} (hp : s.phase = .idle) : engineTurn s = .next s := by
  rcases engineTurn_cases s with ⟨_, h⟩ | ⟨hrun, _⟩ | ⟨hrun, _⟩
  · exact h
  · exact nomatch hp.symm.trans hrun
  · exact nomatch hp.symm.trans hrun

/-- A step takes exactly the first event of the schedule. -/
theorem step_events {s t : State} (h : step s = .next t) : t.events = s.events.tail := by
  rcases step_cases s with ⟨hs, e⟩ | ⟨es, hs, e⟩ | ⟨i, es, hs, e⟩ | ⟨i, v, es, hs, e⟩ | ⟨es, hs, e⟩ <;>
    rw [e] at h <;> rw [hs]
  · exact (engineTurn_leaves h).2.events_eq.trans hs
  · exact (engineTurn_leaves h).2.events_eq
  · cases h
    rfl
  · cases h
    exact ((s.withEvents es).hostWrite_keepsScheduleAndDraws i v).events_eq
  · cases h
    rfl

/-- A run through the whole schedule and one engine's turn more ends in IDLE, by induction on the schedule. -/
theorem run_schedule_idle (es : List Event) {s : State} (hs : s.events = es) :
    ∃ t, Sys2Proof.core.run (es.length + 1) s = .next t ∧ t.phase = .idle ∧ t.events = [] := by
  induction es generalizing s with
  | nil =>
    obtain ⟨t, ht⟩ := engineTurn_next s
    obtain ⟨hidle, hkeeps⟩ := engineTurn_leaves ht
    exact ⟨t, run_of_step 0 ((step_of_noEvents hs).trans ht), hidle, hkeeps.events_eq.trans hs⟩
  | cons e es ih =>
    obtain ⟨u, hu⟩ := step_next s
    have htail : u.events = es := (step_events hu).trans (congrArg List.tail hs)
    rw [List.length_cons, run_of_step _ hu]
    exact ih htail

/-! The discipline of 70_reset R249 and R250, access by access. -/

/-- The one write the discipline allows while BUSY is RESET. -/
theorem State.idle_of_respectsBusy {s : State} {i : RegIndex} {v : Word} {es : List Event} (hbusy : s.respectsBusy = true)
    (h : s.events = .hostWrite i v :: es) (hreset : i = 8 → opField v ≠ 0xF) : s.phase = .idle := by
  simp only [State.respectsBusy, h, Bool.or_eq_true, Bool.and_eq_true, decide_eq_true_eq, beq_iff_eq,
    BitVec.setWidth_eq] at hbusy
  rcases hbusy with hidle | ⟨hi, hop⟩
  · exact hidle
  · exact absurd hop (hreset hi)

/-- The reads the discipline allows are those that are no draw. -/
theorem State.readIsDraw_of_respectsBusy {s : State} {i : RegIndex} {es : List Event} (hbusy : s.respectsBusy = true)
    (h : s.events = .hostRead i :: es) : s.readIsDraw i = false := by
  simpa [State.respectsBusy, h] using hbusy

/-- A read that is no draw records the register and is not counted (20_memory R61, R63). -/
theorem State.hostRead_of_not_draw {s : State} {i : RegIndex} (h : s.readIsDraw i = false) :
    s.hostRead i = { s with reads := s.reads ++ [(i, s.regWord i)] } := by
  simp [State.hostRead, State.readValue, h]

/-- A read within the discipline returns the register; the schedule is no part of what it depends on. -/
theorem State.withEvents_hostRead_of_respectsBusy {s : State} {i : RegIndex} {es : List Event}
    (hbusy : s.respectsBusy = true) (h : s.events = .hostRead i :: es) :
    (s.withEvents es).hostRead i = { s with events := es, reads := s.reads ++ [(i, s.regWord i)] } := by
  have hdraw : s.readIsDraw i = false := readIsDraw_of_respectsBusy hbusy h
  exact State.hostRead_of_not_draw (s := s.withEvents es) hdraw

theorem step_draws_of_respectsBusy {s t : State} (hbusy : s.respectsBusy = true) (h : step s = .next t) :
    t.draws = s.draws := by
  rcases step_cases s with ⟨_, e⟩ | ⟨es, _, e⟩ | ⟨i, es, hs, e⟩ | ⟨i, v, es, _, e⟩ | ⟨es, _, e⟩ <;> rw [e] at h
  · exact (engineTurn_leaves h).2.draws_eq
  · exact (engineTurn_leaves h).2.draws_eq
  · cases h
    rw [State.withEvents_hostRead_of_respectsBusy hbusy hs]
  · cases h
    exact ((s.withEvents es).hostWrite_keepsScheduleAndDraws i v).draws_eq
  · cases h
    rfl

end Sys2Proof.Machine

open Sys2Proof Sys2Proof.Machine

/-- Settles O58: every step takes one event, and the engine's turn on the empty schedule ends in IDLE. -/
theorem everyCommandCompletes : Obligations.EveryCommandCompletes := fun s => run_schedule_idle s.events rfl

/-- Settles O59: the discipline leaves a write only an idle RADE, or RESET, and a read only a register. -/
theorem respectfulHostLosesNothing : Obligations.RespectfulHostLosesNothing := by
  intro s t hbusy h
  refine ⟨step_draws_of_respectsBusy hbusy h, fun r v es hs => ?_, fun w es hs hfault hop => ?_, fun i es hs => ?_⟩
  · have h8 : r.index ≠ 8 := by cases r <;> decide
    have hidle : s.phase = .idle := State.idle_of_respectsBusy hbusy hs fun hi => absurd hi h8
    rw [step_of_hostWrite hs, State.hostWrite_index_of_idle (s := s.withEvents es) hidle] at h
    cases h
    exact (s.withEvents es).getG_setG_same r v
  · have hreset : opField w ≠ 0xF := opField_eq_iff.not.mpr hop
    have hidle : s.phase = .idle := State.idle_of_respectsBusy hbusy hs fun _ => hreset
    rw [step_of_hostWrite hs, State.hostWrite_cmd_of_idle (s := s.withEvents es) hidle hfault hreset] at h
    cases h
    exact ⟨rfl, rfl⟩
  · rw [step_of_hostRead hs, State.withEvents_hostRead_of_respectsBusy hbusy hs] at h
    cases h
    rfl

/-- Settles O7, on both ways the engine gets its turn: by an event, and on the empty schedule. -/
theorem idleEngineWaits : Obligations.IdleEngineWaits :=
  fun s hidle => ⟨fun es h => (step_of_engine h).trans (engineTurn_of_idle (s := s.withEvents es) hidle),
    fun h => (step_of_noEvents h).trans (engineTurn_of_idle hidle)⟩
end
